-- ==== Sys2Proof/Word.lean ====
section
/-! DEFINITION. The widths of the block's values as types (00_scope.md R5 to R7, R10; 20_memory.md R51). Every value
is an unsigned bit vector, bit 0 the least significant (00_scope.md R11). -/

namespace Sys2Proof

/-- One byte of a message (00_scope.md R6). -/
abbrev Byte : Type := BitVec 8

/-- A key, KEY_WIDTH = 16 bits (00_scope.md R5). -/
abbrev Key : Type := BitVec 16

/-- Two bytes of a message, or the 16-bit contents of DOUT; the earlier byte is in bits 15:8 (20_memory.md R57). -/
abbrev DataWord : Type := BitVec 16

/-- A passthrough count, PASS_WIDTH = 24 bits (00_scope.md R10). -/
abbrev PassCount : Type := BitVec 24

/-- A byte count, COUNT_WIDTH = 32 bits (00_scope.md R10). -/
abbrev ByteCount : Type := BitVec 32

/-- A bus data word, BUS_WIDTH = 32 bits; a command word is one (20_memory.md R51; 30_encoding.md R70). -/
abbrev BusWord : Type := BitVec 32

/-- The 3-bit register index that a bus access carries (20_memory.md R51). -/
abbrev RegIndex : Type := BitVec 3

end Sys2Proof
end

