-- ==== Sys2Proof/Syntax.lean ====
section
/-! DEFINITION. What the host can say to the block: the eight commands (30_encoding.md R73), the eight registers
(20_memory.md R52), the events on the block's inputs, and the assembly lines and pseudo-instructions that spell them
(30_encoding.md R79, R80). No meaning stands here. -/

namespace Sys2Proof

/-- The commands, one constructor per row of the opcode map (30_encoding.md R73). Every operand has the width of its
format (R71), so a value of this type is a legal command and nothing else. -/
inductive Instr where
  /-- NOP, format N (42_system.md R140). -/
  | nop
  /-- SETKEY K, format K: load the initial key (40_key_control.md R90). -/
  | setkey (k : Key)
  /-- KEYTAG T, format K: load the initial key from the low half of a JH tag (40_key_control.md R92). -/
  | keytag (t : DataWord)
  /-- SETPASS P, format P: load the passthrough count (40_key_control.md R94). -/
  | setpass (p : PassCount)
  /-- XBYTE B, format B: transform one byte (41_data_transform.md R116). -/
  | xbyte (b : Byte)
  /-- XWORD W, format W: transform two bytes, the first in bits 15:8 (41_data_transform.md R117). -/
  | xword (w : DataWord)
  /-- CLRERR, format N: clear the sticky error flags (42_system.md R142). -/
  | clrerr
  /-- SRESET, format N: soft reset (42_system.md R144). -/
  | sreset
  deriving DecidableEq, Repr

/-- The operand formats of a command word (30_encoding.md R71). -/
inductive Format where
  /-- No operand. -/
  | none
  /-- A 16-bit key or tag half in IMM[15:0]. -/
  | key
  /-- A 24-bit count in IMM[23:0]. -/
  | count
  /-- One byte in IMM[7:0]. -/
  | byte
  /-- Two bytes in IMM[15:0]. -/
  | word
  deriving DecidableEq, Repr

/-- The registers of the register map (20_memory.md R52). -/
inductive Reg where
  /-- CMD, offset 0x00, write-only. -/
  | cmd
  /-- KEY, offset 0x04. -/
  | key
  /-- KEYINIT, offset 0x08. -/
  | keyinit
  /-- PASS, offset 0x0C. -/
  | pass
  /-- STATUS, offset 0x10. -/
  | status
  /-- DOUT, offset 0x14; reading it has a side effect. -/
  | dout
  /-- COUNT, offset 0x18. -/
  | count
  /-- ID, offset 0x1C. -/
  | id
  deriving DecidableEq, Repr

/-- What can reach the block from outside, one event at a time (20_memory.md R51, R59; 70_reset_and_hazards.md R180;
60_exceptions.md R174). A partial-word access and a second host cannot be written down; log entry 14. -/
inductive BusEvent where
  /-- The host writes a 32-bit word to the register with this index. -/
  | write (index : RegIndex) (data : BusWord)
  /-- The host reads the register with this index. -/
  | read (index : RegIndex)
  /-- The platform asserts and releases hardware reset; one transition (70_reset_and_hazards.md R180). -/
  | hardwareReset
  /-- The block loses power and is powered up (60_exceptions.md R174). Log entry 4. -/
  | powerUp
  deriving DecidableEq, Repr

/-- A line of the assembly language: one bus access (30_encoding.md R79). -/
inductive AsmLine where
  /-- A command: one write of its encoded word to CMD. -/
  | command (i : Instr)
  /-- `RD <name>`: a read of the named register. -/
  | rd (r : Reg)
  /-- `WR <name>, <value>`: a write of the named register. The spec's program P3 (95_test_vectors.md) also spells an
  illegal command word as `WR CMD, <value>`. Log entry 10. -/
  | wr (r : Reg) (value : BusWord)
  deriving DecidableEq, Repr

/-- The pseudo-instructions (30_encoding.md R80). -/
inductive Pseudo where
  /-- `BEGIN k, p`: start a message. -/
  | beginKey (k : Key) (p : PassCount)
  /-- `BEGINTAG t, p`: start a message keyed by a JH tag. -/
  | beginTag (t : DataWord) (p : PassCount)
  /-- `XB b`: transform one byte and collect it. -/
  | xb (b : Byte)
  /-- `XW w`: transform two bytes and collect them. -/
  | xw (w : DataWord)
  deriving DecidableEq, Repr

end Sys2Proof
end

