-- ==== Sys2Proof/Decode.lean ====
section
/-! DEFINITION. The decoder of command words (30_encoding.md R74), total on every 32-bit word and rejecting by name;
after it the encoder (R71, R73), and the reading of a word of spec/opcode_table.json. -/

namespace Sys2Proof

/-- Why a word is no command (30_encoding.md R74). All three have one effect, ERR_ILL (60_exceptions.md R160). -/
inductive DecodeError where
  /-- The RSV field is not 0 (30_encoding.md R76). -/
  | rsvNotZero
  /-- The OP value is reserved, 0x6 to 0xD (30_encoding.md R75). -/
  | reservedOpcode
  /-- A `0` bit of the command's format is set (30_encoding.md R76). -/
  | zeroBitsNotZero
  deriving DecidableEq, Repr

/-- OP, bits 31:28 of a command word (30_encoding.md R71). -/
def opField (w : BusWord) : BitVec 4 := w.extractLsb' 28 4

/-- RSV, bits 27:24 of a command word (30_encoding.md R71). -/
def rsvField (w : BusWord) : BitVec 4 := w.extractLsb' 24 4

/-- IMM, bits 23:0 of a command word (30_encoding.md R71). It is also the operand P. -/
def immField (w : BusWord) : BitVec 24 := w.extractLsb' 0 24

/-- Bits 23:16 of a command word, which formats K and W mark `0` (30_encoding.md R71). -/
def immHigh8 (w : BusWord) : BitVec 8 := w.extractLsb' 16 8

/-- Bits 23:8 of a command word, which format B marks `0` (30_encoding.md R71). -/
def immHigh16 (w : BusWord) : BitVec 16 := w.extractLsb' 8 16

/-- The operand K, T or W, IMM[15:0] (30_encoding.md R71, R72). -/
def immLow16 (w : BusWord) : BitVec 16 := w.extractLsb' 0 16

/-- The operand B, IMM[7:0] (30_encoding.md R71, R72). -/
def immLow8 (w : BusWord) : BitVec 8 := w.extractLsb' 0 8

/-- The decoder, line by line as 30_encoding.md R74 gives it: RSV first, then OP, then the `0` bits of the format. -/
def decode (w : BusWord) : Except DecodeError Instr :=
  if rsvField w ≠ 0#4 then .error .rsvNotZero
  else
    match (opField w).toNat with
    | 0x0 => if immField w ≠ 0#24 then .error .zeroBitsNotZero else .ok .nop
    | 0x1 => if immHigh8 w ≠ 0#8 then .error .zeroBitsNotZero else .ok (.setkey (immLow16 w))
    | 0x2 => if immHigh8 w ≠ 0#8 then .error .zeroBitsNotZero else .ok (.keytag (immLow16 w))
    | 0x3 => .ok (.setpass (immField w))
    | 0x4 => if immHigh16 w ≠ 0#16 then .error .zeroBitsNotZero else .ok (.xbyte (immLow8 w))
    | 0x5 => if immHigh8 w ≠ 0#8 then .error .zeroBitsNotZero else .ok (.xword (immLow16 w))
    | 0xE => if immField w ≠ 0#24 then .error .zeroBitsNotZero else .ok .clrerr
    | 0xF => if immField w ≠ 0#24 then .error .zeroBitsNotZero else .ok .sreset
    | _ => .error .reservedOpcode

/-- The one command word of each command (30_encoding.md R71, R73, R77): OP, RSV = 0, then the operand with the `0`
bits of its format. -/
def encode : Instr → BusWord
  | .nop => 0x0#4 ++ 0#4 ++ 0#24
  | .setkey k => 0x1#4 ++ 0#4 ++ 0#8 ++ k
  | .keytag t => 0x2#4 ++ 0#4 ++ 0#8 ++ t
  | .setpass p => 0x3#4 ++ 0#4 ++ p
  | .xbyte b => 0x4#4 ++ 0#4 ++ 0#16 ++ b
  | .xword w => 0x5#4 ++ 0#4 ++ 0#8 ++ w
  | .clrerr => 0xE#4 ++ 0#4 ++ 0#24
  | .sreset => 0xF#4 ++ 0#4 ++ 0#24

/-- The mnemonic of a command (30_encoding.md R73). -/
def mnemonic : Instr → String
  | .nop => "NOP"
  | .setkey _ => "SETKEY"
  | .keytag _ => "KEYTAG"
  | .setpass _ => "SETPASS"
  | .xbyte _ => "XBYTE"
  | .xword _ => "XWORD"
  | .clrerr => "CLRERR"
  | .sreset => "SRESET"

/-- A row of the opcode map's match and mask columns (30_encoding.md R73). -/
structure OpcodeRow where
  /-- The mnemonic of the row. -/
  name : String
  /-- The match column. -/
  matchBits : BusWord
  /-- The mask column. -/
  maskBits : BusWord
  deriving DecidableEq, Repr

/-- The match and mask columns of the opcode map (30_encoding.md R73). -/
def opcodeMap : List OpcodeRow :=
  [ ⟨"NOP", 0x00000000#32, 0xFFFFFFFF#32⟩,
    ⟨"SETKEY", 0x10000000#32, 0xFFFF0000#32⟩,
    ⟨"KEYTAG", 0x20000000#32, 0xFFFF0000#32⟩,
    ⟨"SETPASS", 0x30000000#32, 0xFF000000#32⟩,
    ⟨"XBYTE", 0x40000000#32, 0xFFFFFF00#32⟩,
    ⟨"XWORD", 0x50000000#32, 0xFFFF0000#32⟩,
    ⟨"CLRERR", 0xE0000000#32, 0xFFFFFFFF#32⟩,
    ⟨"SRESET", 0xF0000000#32, 0xFFFFFFFF#32⟩ ]

/-- "A word `w` selects a row when `(w & mask) == match`" (30_encoding.md R73). -/
def selectsRow (w : BusWord) (row : OpcodeRow) : Bool :=
  w &&& row.maskBits == row.matchBits

/-- The command word whose low nbits bits are w and whose other bits are 0. A command is one bus data word, so it has
no byte order of its own (20_memory.md R57; 30_encoding.md R70). Log entry 13. -/
def tableWord (nbits w : Nat) : BusWord :=
  BitVec.ofNat 32 (w % 2 ^ nbits)

/-- The instruction that the decoder reads from a word of spec/opcode_table.json. -/
def decodeTableWord (nbits w : Nat) : Option Instr :=
  (decode (tableWord nbits w)).toOption

end Sys2Proof
end

