-- ==== Sys2Proof/Config.lean ====
section
/-! DEFINITION. The parameters of the block: the named constants of 00_scope.md R7, each with the value given there,
and the two parameters that the spec leaves open, as constants without a body. -/

namespace Sys2Proof.Config

/-- KEY_WIDTH: the key is 16 bits wide (00_scope.md R5, R7). -/
abbrev keyWidth : Nat := 16

/-- KEY_SHIFT of the key update (00_scope.md R7, R8). An unaudited literal of the source, normative here
(92_eei_decisions.md D22). Log entry 5. Unsafe if the literal is wrong. -/
abbrev keyShift : Nat := 4

/-- KEY_ADD of the key update (00_scope.md R7, R8). An unaudited literal of the source, normative here
(92_eei_decisions.md D22). Log entry 5. Unsafe if the literal is wrong. -/
abbrev keyAdd : Nat := 87

/-- JH_TAG_HIGH: the fixed high 16 bits of a JH tag (00_scope.md R7, R9). An unaudited literal of the source,
normative here (92_eei_decisions.md D22). Log entry 5. Unsafe if the literal is wrong. -/
abbrev jhTagHigh : BitVec 16 := 0x4A48#16

/-- PASS_WIDTH: the passthrough counter is 24 bits wide (00_scope.md R7, R10). -/
abbrev passWidth : Nat := 24

/-- COUNT_WIDTH: the byte counter is 32 bits wide and wraps (00_scope.md R7, R10). -/
abbrev countWidth : Nat := 32

/-- OUT_CAPACITY: the output holding register holds at most 2 bytes (00_scope.md R7). -/
abbrev outCapacity : Nat := 2

/-- BUS_WIDTH: a bus access carries one 32-bit word (00_scope.md R7; 20_memory.md R51). -/
abbrev busWidth : Nat := 32

/-- REG_COUNT: the register space has 8 registers (00_scope.md R7; 20_memory.md R51). -/
abbrev regCount : Nat := 8

/-- The command set version in bits 15:0 of the ID register (10_state.md R29). -/
abbrev commandSetVersion : BitVec 16 := 0x0001#16

/-- JHC16_BASE: where the 32-byte register window stands in the host's address space. The spec leaves it OPEN, a
parameter of the platform (20_memory.md R51, R60; 92_eei_decisions.md D3). No body: nothing can be proved of its value.
Log entry 6. Safe. -/
opaque jhc16Base : Nat

/-- JHC16_ACCESS_CYCLES: how long one access takes. The spec leaves it OPEN and no rule reads it
(70_reset_and_hazards.md R188; 92_eei_decisions.md D20). No body, and nothing in the machine reads it: the model is
untimed. Log entry 7. Safe. -/
opaque jhc16AccessCycles : Nat

end Sys2Proof.Config
end

