-- ==== Sys2Proof/Machine/Operands.lean ====
section
/-! DEFINITION. How operands and outputs are made of bytes: the order of two bytes in a word (20_memory.md R56, R57),
the zero-extension of an output byte (10_state.md R26), and the JH tag (20_memory.md R58; 40_key_control.md R92). -/

namespace Sys2Proof.Machine

/-- `v[15:8]`: the byte that comes first in message order (20_memory.md R57). -/
def highByte (v : BitVec 16) : Byte := v.extractLsb' 8 8

/-- `v[7:0]`: the byte that comes second in message order (20_memory.md R57). -/
def lowByte (v : BitVec 16) : Byte := v.extractLsb' 0 8

/-- `{first, second}`: two bytes as one word, the earlier in bits 15:8 (20_memory.md R57). -/
def pairBytes (first second : Byte) : DataWord := first ++ second

/-- `zext_16` of an output byte (10_state.md R26). -/
def zeroExtendByte (y : Byte) : DataWord := y.setWidth 16

/-- A JH tag `t0 t1 t2 t3` as the big-endian 32-bit header (20_memory.md R58). -/
def tagHeader (t0 t1 t2 t3 : Byte) : BitVec 32 := t0 ++ t1 ++ t2 ++ t3

/-- The high half of a header, `{t0, t1}` (20_memory.md R58). -/
def tagHighHalf (header : BitVec 32) : DataWord := header.extractLsb' 16 16

/-- The low half of a header, `{t2, t3}`, which KEYTAG takes (20_memory.md R58). -/
def tagLowHalf (header : BitVec 32) : DataWord := header.extractLsb' 0 16

/-- A header is a JH tag when its high half is JH_TAG_HIGH (00_scope.md R9). The caller tests this, not the block. -/
def isJhTag (header : BitVec 32) : Bool :=
  header &&& 0xFFFF0000#32 == Config.jhTagHigh ++ 0#16

/-- The key that KEYTAG derives from a tag's low half: `JH_TAG_HIGH ^ T` (40_key_control.md R92; 90_conflicts.md C1). -/
def keyOfTag (t : DataWord) : Key := Config.jhTagHigh ^^^ t

end Sys2Proof.Machine
end

