-- ==== Sys2Proof/Machine/State.lean ====
section
/-! DEFINITION. The state of the block, exactly the list of 10_state.md R20, and the host's side of the bus as plain
data beside it; the reset state (10_state.md R33); and the reasons a step could stop. -/

namespace Sys2Proof.Machine

/-- PHASE, the one-bit engine state (10_state.md R25; 00_scope.md section 7). -/
inductive Phase where
  /-- PHASE = 0: the next non-passthrough byte is the high byte of a word position. -/
  | high
  /-- PHASE = 1: the next non-passthrough byte is the low byte of its word position. -/
  | low
  deriving DecidableEq, Repr

/-- The machine. The first ten fields are the block's whole architectural state (10_state.md R20); the last two are
the model's own and stand for the host's side of the bus (log entries 1 and 3). -/
structure State where
  /-- KEY: the key of the current word position (10_state.md R21). -/
  key : Key
  /-- KEYINIT: the key most recently loaded by SETKEY or KEYTAG (10_state.md R22). -/
  keyinit : Key
  /-- PASS: how many passthrough bytes are still to be copied (10_state.md R23). -/
  pass : PassCount
  /-- PHASE (10_state.md R25). -/
  phase : Phase
  /-- OUT_CNT: how many output bytes DOUT holds, 0, 1 or 2 (10_state.md R24, R26). Two bits could hold 3, and no step
  ever makes it so; log entry 12. -/
  outCnt : BitVec 2
  /-- DOUT: the output holding register (10_state.md R26). -/
  dout : DataWord
  /-- ERR_ILL, sticky (10_state.md R27). -/
  errIll : Bool
  /-- ERR_OVF, sticky (10_state.md R27). -/
  errOvf : Bool
  /-- ERR_UNF, sticky (10_state.md R27). -/
  errUnf : Bool
  /-- COUNT: bytes stepped since the last key load, modulo 2^32 (10_state.md R28). -/
  count : ByteCount
  /-- The events that have been issued to the block and that it has not performed yet, oldest first
  (20_memory.md R62). The model's own. Log entry 1. -/
  issued : List BusEvent
  /-- The values that bus reads have returned to the host, oldest first (00_scope.md R11). The model's own. Log entry 3. -/
  replies : List BusWord
  deriving DecidableEq, Repr

/-- The reasons a step stops with a fault. There are none: every error of the block sets a sticky flag, and the block
goes on (60_exceptions.md R163, R166; 20_memory.md R61). Log entry 8. -/
inductive Fault where
  deriving DecidableEq, Repr

/-- The reasons a step is refused. -/
inductive Refusal where
  /-- Raised by an arm of exec for an instruction that has no meaning yet; no arm raises it now. Safe. -/
  | notModelled (mnemonic : String)
  deriving DecidableEq, Repr

/-- One step's result. -/
abbrev Outcome : Type := Host.Outcome State Fault Refusal

/-- The machine right after reset: every register at the value of 10_state.md R33, nothing issued by the host yet and
nothing answered to it (log entries 1 and 3). -/
def State.reset : State where
  key := 0x0000#16
  keyinit := 0x0000#16
  pass := 0x000000#24
  phase := .high
  outCnt := 0#2
  dout := 0x0000#16
  errIll := false
  errOvf := false
  errUnf := false
  count := 0x00000000#32
  issued := []
  replies := []

end Sys2Proof.Machine
end

