-- ==== Sys2Proof/Machine/Engine.lean ====
section
/-! DEFINITION. The cipher: the key update (41_data_transform.md R112), the reference function Apply (R110, R111), and
the byte-serial engine step that the block performs (R113). -/

namespace Sys2Proof.Machine

/-- The key update, on integers and then modulo 2^KEY_WIDTH: `((k << KEY_SHIFT) + k + KEY_ADD) mod 2^16`
(41_data_transform.md R112; 00_scope.md R8). -/
def nextKey (k : Key) : Key :=
  BitVec.ofNat 16 (((k.toNat <<< Config.keyShift) + k.toNat + Config.keyAdd) % 2 ^ Config.keyWidth)

/-- The loop of Apply over the bytes after the prefix, with `k` the key of the next word position: a full word
position is XORed with the key and the key is updated; a lone byte is the high byte of a word whose low byte is absent
(41_data_transform.md R110, R111). -/
def cipherWords : Key → List Byte → List Byte
  | _, [] => []
  | k, [x] => [highByte (pairBytes x 0#8 ^^^ k)]
  | k, x :: y :: rest =>
    highByte (pairBytes x y ^^^ k) :: lowByte (pairBytes x y ^^^ k) :: cipherWords (nextKey k) rest

/-- `Apply(b, key, pass)`, the reference function (41_data_transform.md R110): the prefix is copied verbatim, and
neither uses nor advances the key (90_conflicts.md C2). -/
def cipherApply (b : List Byte) (key : Key) (pass : Nat) : List Byte :=
  b.take (min pass b.length) ++ cipherWords key (b.drop (min pass b.length))

/-- `step(x)`, the engine step: one input byte, one output byte and the new state (41_data_transform.md R113). -/
def engineStep (x : Byte) (s : State) : Byte × State :=
  if s.pass ≠ 0#24 then
    (x, { s with count := s.count + 1#32, pass := s.pass - 1#24 })
  else
    match s.phase with
    | .high => (x ^^^ highByte s.key, { s with count := s.count + 1#32, phase := .low })
    | .low =>
      (x ^^^ lowByte s.key, { s with count := s.count + 1#32, phase := .high, key := nextKey s.key })

/-- Feeding bytes through the engine step in order, collecting the outputs (41_data_transform.md R114). -/
def engineRun : List Byte → State → List Byte × State
  | [], s => ([], s)
  | x :: xs, s =>
    ((engineStep x s).1 :: (engineRun xs (engineStep x s).2).1, (engineRun xs (engineStep x s).2).2)

end Sys2Proof.Machine
end

