-- ==== Sys2Proof/Machine/Flags.lean ====
section
/-! DEFINITION. STATUS as a view of the state (10_state.md R24), and the three error causes with their codes
(60_exceptions.md R160 to R163). -/

namespace Sys2Proof.Machine

/-- PHASE as its bit (10_state.md R24). -/
def phaseBit : Phase → BitVec 1
  | .high => 0#1
  | .low => 1#1

/-- The three causes that the block can record (60_exceptions.md R163). -/
inductive ErrorCause where
  /-- ERR_ILL: an illegal command word (60_exceptions.md R160). -/
  | illegal
  /-- ERR_OVF: a data command while output is held (60_exceptions.md R161). -/
  | overrun
  /-- ERR_UNF: a read of DOUT while no output is held (60_exceptions.md R162). -/
  | underrun
  deriving DecidableEq, Repr

/-- The cause code, which is the STATUS bit number of the flag (60_exceptions.md R163). -/
def causeCode : ErrorCause → Nat
  | .illegal => 4
  | .overrun => 5
  | .underrun => 6

/-- The sticky flag of a cause (10_state.md R27). -/
def errorFlag (c : ErrorCause) (s : State) : Bool :=
  match c with
  | .illegal => s.errIll
  | .overrun => s.errOvf
  | .underrun => s.errUnf

/-- STATUS: bit 0 PHASE, bits 2:1 OUT_CNT, bit 3 reserved, bits 4, 5 and 6 the error flags, bits 31:7 reserved; the
reserved bits read 0 (10_state.md R24). -/
def statusWord (s : State) : BusWord :=
  0#25 ++ BitVec.ofBool s.errUnf ++ BitVec.ofBool s.errOvf ++ BitVec.ofBool s.errIll ++ 0#1 ++ s.outCnt ++
    phaseBit s.phase

end Sys2Proof.Machine
end

