-- ==== Sys2Proof/Machine/Ops.lean ====
section
/-! DEFINITION. The named operations over the block's state that the meanings share: loading a key, loading the
passthrough count, holding and emptying the output, raising an error and clearing the errors, and resetting the
block. The block has no memory (20_memory.md R50), so there are no memory operations. -/

namespace Sys2Proof.Machine

/-- What a key load does: KEY and KEYINIT take the key, PHASE and COUNT are cleared, all else stays
(40_key_control.md R90, R92). -/
def loadKey (k : Key) (s : State) : State :=
  { s with key := k, keyinit := k, phase := .high, count := 0#32 }

/-- `PASS <- P`, and nothing else (40_key_control.md R94). -/
def loadPass (p : PassCount) (s : State) : State :=
  { s with pass := p }

/-- `DOUT <- v`, `OUT_CNT <- n` (41_data_transform.md R116, R117). -/
def holdOutput (v : DataWord) (n : BitVec 2) (s : State) : State :=
  { s with dout := v, outCnt := n }

/-- What a successful DOUT read leaves: DOUT and OUT_CNT are 0 (10_state.md R26; 41_data_transform.md R119). -/
def emptyOutput (s : State) : State :=
  { s with dout := 0#16, outCnt := 0#2 }

/-- Raising an error, the one thing the block has in the place of an exception: the cause's sticky flag is set and no
other state changes; nothing is saved, no mode changes and no control is transferred (60_exceptions.md R160 to R162,
R166). -/
def raiseError (c : ErrorCause) (s : State) : State :=
  match c with
  | .illegal => { s with errIll := true }
  | .overrun => { s with errOvf := true }
  | .underrun => { s with errUnf := true }

/-- Clearing the three sticky flags, the nearest thing to a return from an error (42_system.md R142;
60_exceptions.md R167). -/
def clearErrors (s : State) : State :=
  { s with errIll := false, errOvf := false, errUnf := false }

/-- Every state element of the block takes its reset value (10_state.md R33; 42_system.md R144;
70_reset_and_hazards.md R180, R181). What the host has issued and what it has been answered are the host's, and stay
(log entries 1 and 3). -/
def resetBlock (s : State) : State :=
  { State.reset with issued := s.issued, replies := s.replies }

/-- The value `v` goes back to the host as the result of its bus read (00_scope.md R11). Log entry 3. -/
def reply (v : BusWord) (s : State) : State :=
  { s with replies := s.replies ++ [v] }

/-- A data command runs only while no output is held; otherwise it is discarded with ERR_OVF
(41_data_transform.md R116, R117; 60_exceptions.md R161). -/
def unlessOutputHeld (s : State) (accepted : State) : Outcome :=
  if s.outCnt ≠ 0#2 then .next (raiseError .overrun s) else .next accepted

end Sys2Proof.Machine
end

