-- ==== Sys2Proof/Machine/DataTransform.lean ====
section
/-! DEFINITION. The meanings of the data commands (41_data_transform.md). -/

namespace Sys2Proof.Machine

/-- What XBYTE leaves once it is accepted: one engine step, its output in DOUT (41_data_transform.md R116). -/
def transformByte (b : Byte) (s : State) : State :=
  holdOutput (zeroExtendByte (engineStep b s).1) 1#2 (engineStep b s).2

/-- What XWORD leaves once it is accepted: the engine steps the first byte, then the second in the state the first
left, and both outputs are in DOUT (41_data_transform.md R117). -/
def transformWord (w : DataWord) (s : State) : State :=
  let r1 := engineStep (highByte w) s
  let r2 := engineStep (lowByte w) r1.2
  holdOutput (pairBytes r1.1 r2.1) 2#2 r2.2

/-- XBYTE B (41_data_transform.md R116, R121). -/
def execXbyte (b : Byte) (s : State) : Outcome :=
  unlessOutputHeld s (transformByte b s)

/-- XWORD W (41_data_transform.md R117, R121). -/
def execXword (w : DataWord) (s : State) : Outcome :=
  unlessOutputHeld s (transformWord w s)

end Sys2Proof.Machine
end

