-- ==== Sys2Proof/Machine/KeyControl.lean ====
section
/-! DEFINITION. The meanings of the key and message control commands (40_key_control.md). -/

namespace Sys2Proof.Machine

/-- SETKEY K (40_key_control.md R90, R91). -/
def execSetkey (k : Key) (s : State) : Outcome :=
  .next (loadKey k s)

/-- KEYTAG T (40_key_control.md R92, R93). -/
def execKeytag (t : DataWord) (s : State) : Outcome :=
  .next (loadKey (keyOfTag t) s)

/-- SETPASS P (40_key_control.md R94, R95). -/
def execSetpass (p : PassCount) (s : State) : Outcome :=
  .next (loadPass p s)

end Sys2Proof.Machine
end

