-- ==== Sys2Proof/Machine/System.lean ====
section
/-! DEFINITION. The meanings of the system commands (42_system.md). -/

namespace Sys2Proof.Machine

/-- NOP: no state change (42_system.md R140, R141). -/
def execNop (s : State) : Outcome :=
  .next s

/-- CLRERR (42_system.md R142, R143). -/
def execClrerr (s : State) : Outcome :=
  .next (clearErrors s)

/-- SRESET (42_system.md R144, R145). -/
def execSreset (s : State) : Outcome :=
  .next (resetBlock s)

end Sys2Proof.Machine
end

