-- ==== Sys2Proof/Machine/Dispatch.lean ====
section
/-! DEFINITION. Which meaning each command has: what one decoded command does to the state. -/

namespace Sys2Proof.Machine

def exec (i : Instr) (s : State) : Host.Outcome State Fault Refusal :=
  match i with
  | .nop => Sys2Proof.Machine.execNop s
  | .setkey k => Sys2Proof.Machine.execSetkey k s
  | .keytag t => Sys2Proof.Machine.execKeytag t s
  | .setpass p => Sys2Proof.Machine.execSetpass p s
  | .xbyte b => Sys2Proof.Machine.execXbyte b s
  | .xword w => Sys2Proof.Machine.execXword w s
  | .clrerr => Sys2Proof.Machine.execClrerr s
  | .sreset => Sys2Proof.Machine.execSreset s

end Sys2Proof.Machine
end

