-- ==== Sys2Proof/Machine/Bus.lean ====
section
/-! DEFINITION. The register space and the bus (20_memory.md): the register map, reads and writes, and what one event
on the block's inputs does. -/

namespace Sys2Proof.Machine

/-- The index of a register: bits 4:2 of its offset (20_memory.md R51, R52). -/
def regIndex : Reg → RegIndex
  | .cmd => 0#3
  | .key => 1#3
  | .keyinit => 2#3
  | .pass => 3#3
  | .status => 4#3
  | .dout => 5#3
  | .count => 6#3
  | .id => 7#3

/-- The register that an index selects; every index selects one (20_memory.md R51, R52). -/
def regOfIndex (i : RegIndex) : Reg :=
  match i.toNat with
  | 0 => .cmd
  | 1 => .key
  | 2 => .keyinit
  | 3 => .pass
  | 4 => .status
  | 5 => .dout
  | 6 => .count
  | _ => .id

/-- The byte offset of a register from the base of the window (20_memory.md R51, R52). -/
def regOffset (r : Reg) : Nat := 4 * (regIndex r).toNat

/-- The address of a register in the host's address space, from the open parameter JHC16_BASE (20_memory.md R51, R60).
Log entry 6. -/
def hostAddress (r : Reg) : Nat := Config.jhc16Base + regOffset r

/-- "The block decodes offset bits 4:2 only" (20_memory.md R51). Log entry 9. -/
def indexOfOffset (off : BitVec 32) : RegIndex := off.extractLsb' 2 3

/-- `BusWrite(off, v)` as an event (00_scope.md R11). -/
def busWriteAt (off : BitVec 32) (v : BusWord) : BusEvent := .write (indexOfOffset off) v

/-- `BusRead(off)` as an event (00_scope.md R11). -/
def busReadAt (off : BitVec 32) : BusEvent := .read (indexOfOffset off)

/-- ID, the constant 0x4A480001: JH_TAG_HIGH and the command set version (10_state.md R29). -/
def idWord : BusWord := Config.jhTagHigh ++ Config.commandSetVersion

/-- What a read of a register returns (20_memory.md R52; for DOUT, 41_data_transform.md R119 and R120). -/
def readValue (r : Reg) (s : State) : BusWord :=
  match r with
  | .cmd => 0#32
  | .key => s.key.setWidth 32
  | .keyinit => s.keyinit.setWidth 32
  | .pass => s.pass.setWidth 32
  | .status => statusWord s
  | .dout => if s.outCnt ≠ 0#2 then s.dout.setWidth 32 else 0#32
  | .count => s.count
  | .id => idWord

/-- What a read of a register does to the state. Only DOUT has a side effect: it is emptied, or ERR_UNF is raised when
it is empty (20_memory.md R53, R59; 41_data_transform.md R119, R120). -/
def readEffect (r : Reg) (s : State) : State :=
  match r with
  | .dout => if s.outCnt ≠ 0#2 then emptyOutput s else raiseError .underrun s
  | .cmd | .key | .keyinit | .pass | .status | .count | .id => s

/-- A bus read: its effect, and its value back to the host (20_memory.md R52, R53). -/
def busRead (i : RegIndex) (s : State) : Outcome :=
  .next (reply (readValue (regOfIndex i) s) (readEffect (regOfIndex i) s))

/-- A write of a word to CMD: the decoded command is executed, an illegal word raises ERR_ILL and changes nothing else
(30_encoding.md R70, R74; 60_exceptions.md R160). -/
def writeCommand (w : BusWord) (s : State) : Outcome :=
  match decode w with
  | .ok i => exec i s
  | .error _ => .next (raiseError .illegal s)

/-- A bus write: to CMD it executes the word, to any other register it is ignored without an error
(20_memory.md R52, R54). -/
def busWrite (i : RegIndex) (v : BusWord) (s : State) : Outcome :=
  match regOfIndex i with
  | .cmd => writeCommand v s
  | .key | .keyinit | .pass | .status | .dout | .count | .id => .next s

/-- What one event on the block's inputs does, as one atomic transition (20_memory.md R59; 70_reset_and_hazards.md
R180). Power-up is treated as a hardware reset (60_exceptions.md R174; log entry 4). -/
def performEvent (e : BusEvent) (s : State) : Outcome :=
  match e with
  | .write i v => busWrite i v s
  | .read i => busRead i s
  | .hardwareReset => .next (resetBlock s)
  | .powerUp => .next (resetBlock s)

end Sys2Proof.Machine
end

