-- ==== Sys2Proof/Machine/Step.lean ====
section
/-! DEFINITION. One step: the block performs the oldest event issued to it (20_memory.md R62). -/

namespace Sys2Proof.Machine

/-- One step of the machine. The oldest issued event is taken off the list and performed as one atomic transition, in
the order of issue (20_memory.md R59, R62). With nothing issued the block waits, unchanged: it does nothing of its own
(20_memory.md R65; log entry 2). -/
def step (s : State) : Host.Outcome State Fault Refusal :=
  match s.issued with
  | [] => .next s
  | e :: rest => performEvent e { s with issued := rest }

/-- The state in which the host's next access writes that command word to CMD: the block fetches nothing
(10_state.md R30), so this is where its next command comes from. Log entry 1. -/
def State.withFetchWord (s : State) (nbits w : Nat) : State :=
  { s with issued := .write (regIndex .cmd) (tableWord nbits w) :: s.issued }

end Sys2Proof.Machine
end

