-- ==== Sys2Proof/Machine/Assembler.lean ====
section
/-! DEFINITION. The assembly language: the bus access each line stands for, its text (30_encoding.md R79), and the
expansion of each pseudo-instruction (R80). -/

namespace Sys2Proof.Machine

/-- The bus access that a line assembles to (30_encoding.md R79). -/
def assembleLine : AsmLine → BusEvent
  | .command i => .write (regIndex .cmd) (encode i)
  | .rd r => .read (regIndex r)
  | .wr r v => .write (regIndex r) v

/-- The lines that a pseudo-instruction expands to (30_encoding.md R80). -/
def expandPseudo : Pseudo → List AsmLine
  | .beginKey k p => [.command (.setpass p), .command (.setkey k)]
  | .beginTag t p => [.command (.setpass p), .command (.keytag t)]
  | .xb b => [.command (.xbyte b), .rd .dout]
  | .xw w => [.command (.xword w), .rd .dout]

/-- The bus accesses of a list of pseudo-instructions, in order (30_encoding.md R79, R80). -/
def assemblePseudos (ps : List Pseudo) : List BusEvent :=
  (ps.flatMap expandPseudo).map assembleLine

/-- One hexadecimal digit. -/
def hexDigit (n : Nat) : Char :=
  if n % 16 < 10 then Char.ofNat (48 + n % 16) else Char.ofNat (55 + n % 16)

/-- The low digits of a number in hexadecimal, the most significant first. -/
def hexDigits : Nat → Nat → List Char
  | 0, _ => []
  | d + 1, n => hexDigits d (n / 16) ++ [hexDigit n]

/-- A number as `0x` and a fixed count of hexadecimal digits (30_encoding.md R79). -/
def hexText (digits n : Nat) : String := "0x" ++ String.ofList (hexDigits digits n)

/-- The name of a register in `RD` and `WR` lines (30_encoding.md R79). -/
def regName : Reg → String
  | .cmd => "CMD"
  | .key => "KEY"
  | .keyinit => "KEYINIT"
  | .pass => "PASS"
  | .status => "STATUS"
  | .dout => "DOUT"
  | .count => "COUNT"
  | .id => "ID"

/-- The text of a command: its mnemonic and its operand in hexadecimal, as wide as the examples of 30_encoding.md R79
write it. -/
def commandText (i : Instr) : String :=
  match i with
  | .nop | .clrerr | .sreset => mnemonic i
  | .setkey k => mnemonic i ++ " " ++ hexText 4 k.toNat
  | .keytag t => mnemonic i ++ " " ++ hexText 4 t.toNat
  | .setpass p => mnemonic i ++ " " ++ hexText 6 p.toNat
  | .xbyte b => mnemonic i ++ " " ++ hexText 2 b.toNat
  | .xword w => mnemonic i ++ " " ++ hexText 4 w.toNat

/-- The text of a line (30_encoding.md R79). A value of `WR` is written with 8 digits, as 95_test_vectors.md V-S10 and
P3 write it. Log entry 10. -/
def lineText : AsmLine → String
  | .command i => commandText i
  | .rd r => "RD " ++ regName r
  | .wr r v => "WR " ++ regName r ++ ", " ++ hexText 8 v.toNat

end Sys2Proof.Machine
end

