-- ==== Sys2Proof/Safety.lean ====
section
/-! DEFINITION. The terms that claims use: the invariant of the output holding register, running a list of events, and
a message as the host sends it and collects it (41_data_transform.md R118). -/

namespace Sys2Proof.Machine

/-- What the spec promises of the output holding register in every state that a run reaches: OUT_CNT never holds 3
(10_state.md R24), an empty DOUT is 0 (10_state.md R26, R32), and a single output byte is zero-extended
(10_state.md R26). -/
def OutputWellFormed (s : State) : Prop :=
  s.outCnt.toNat ≤ Config.outCapacity ∧ (s.outCnt = 0#2 → s.dout = 0#16) ∧
    (s.outCnt = 1#2 → s.dout.toNat < 256)

/-- No sticky error flag is set. -/
def NoError (s : State) : Prop :=
  s.errIll = false ∧ s.errOvf = false ∧ s.errUnf = false

/-- The same three sticky error flags in both states. -/
def SameErrors (s t : State) : Prop :=
  t.errIll = s.errIll ∧ t.errOvf = s.errOvf ∧ t.errUnf = s.errUnf

/-- The event is a write to CMD of a word that decodes to a command with one of these mnemonics. -/
def WritesCommand (names : List String) (e : BusEvent) : Prop :=
  ∃ w i, e = .write 0#3 w ∧ decode w = .ok i ∧ mnemonic i ∈ names

/-- The event resets the block: SRESET, a hardware reset, or a power-up, which is treated as one
(70_reset_and_hazards.md R180, R181; 60_exceptions.md R174). -/
def ResetsBlock (e : BusEvent) : Prop :=
  WritesCommand ["SRESET"] e ∨ e = .hardwareReset ∨ e = .powerUp

/-- Performing a list of events in order, up to the first that stops (20_memory.md R62). -/
def performAll : List BusEvent → State → Outcome
  | [], s => .next s
  | e :: rest, s =>
    match performEvent e s with
    | .next t => performAll rest t
    | .fault r => .fault r
    | .refused r => .refused r

/-- One piece of a message as the host sends it: a byte by XBYTE or two bytes by XWORD (41_data_transform.md R118). -/
inductive Chunk where
  /-- One byte, sent by `XB`. -/
  | one (b : Byte)
  /-- Two bytes, sent by `XW`, the first in bits 15:8. -/
  | two (w : DataWord)
  deriving DecidableEq, Repr

/-- The pseudo-instruction that sends a chunk and collects its output (30_encoding.md R80). -/
def chunkPseudo : Chunk → Pseudo
  | .one b => .xb b
  | .two w => .xw w

/-- The message bytes that a chunk carries, in message order (20_memory.md R57). -/
def chunkBytes : Chunk → List Byte
  | .one b => [b]
  | .two w => [highByte w, lowByte w]

/-- The output bytes that the host takes from the DOUT read after a chunk: "From an XWORD read, bits 15:8 come first
and bits 7:0 second. From an XBYTE read, only bits 7:0 count." (41_data_transform.md R118) -/
def chunkOutput (c : Chunk) (v : BusWord) : List Byte :=
  match c with
  | .one _ => [v.extractLsb' 0 8]
  | .two _ => [v.extractLsb' 8 8, v.extractLsb' 0 8]

/-- The bytes of a message sent as these chunks. -/
def messageBytes (cs : List Chunk) : List Byte := cs.flatMap chunkBytes

/-- The output bytes that the host collects from the DOUT reads of these chunks, in order. -/
def collectOutput (cs : List Chunk) (reads : List BusWord) : List Byte :=
  (List.zipWith chunkOutput cs reads).flatten

/-- The bus accesses of a whole message: the pseudo-instruction that starts it, BEGIN or BEGINTAG, then every chunk
with its DOUT read (41_data_transform.md R118; 30_encoding.md R80). -/
def messageEvents (start : Pseudo) (cs : List Chunk) : List BusEvent :=
  assemblePseudos (start :: cs.map chunkPseudo)

/-- The keystream: `k(0) = k0`, `k(n+1) = next(k(n))` (00_scope.md section 7; 41_data_transform.md R114). -/
def keystream (k0 : Key) : Nat → Key
  | 0 => k0
  | n + 1 => nextKey (keystream k0 n)

end Sys2Proof.Machine
end

