-- ==== Sys2Proof/WellFormed.lean ====
section
/-! DEFINITION. When a 32-bit word is a legal command word, as the prose of 30_encoding.md R71 and R73 says it: "A
word is legal only if its OP is listed, RSV = 0, and the `0` bits of its format are all 0." The decoder of Decode.lean
is written from another rule, R74, and does not use these checks. A value of Instr needs no check of its own, because
its operands have the widths of their formats. -/

namespace Sys2Proof

/-- The format of each listed OP value; none for the reserved ones, 0x6 to 0xD (30_encoding.md R73, R75). -/
def formatOfOp (op : BitVec 4) : Option Format :=
  match op.toNat with
  | 0x0 => some .none
  | 0x1 => some .key
  | 0x2 => some .key
  | 0x3 => some .count
  | 0x4 => some .byte
  | 0x5 => some .word
  | 0xE => some .none
  | 0xF => some .none
  | _ => none

/-- The IMM bits that a format marks `0` (30_encoding.md R71). -/
def Format.zeroMask : Format → BitVec 24
  | .none => 0xFFFFFF#24
  | .key => 0xFF0000#24
  | .count => 0x000000#24
  | .byte => 0xFFFF00#24
  | .word => 0xFF0000#24

/-- Check 1: the OP of the word is listed (30_encoding.md R73). -/
def opListed (w : BusWord) : Bool :=
  (formatOfOp (w.extractLsb' 28 4)).isSome

/-- Check 2: the RSV field of the word is 0 (30_encoding.md R71). -/
def rsvClear (w : BusWord) : Bool :=
  w.extractLsb' 24 4 == 0#4

/-- Check 3: the `0` bits of the word's format are all 0 (30_encoding.md R71); a word without a format fails it. -/
def zeroBitsClear (w : BusWord) : Bool :=
  match formatOfOp (w.extractLsb' 28 4) with
  | some f => w.extractLsb' 0 24 &&& f.zeroMask == 0#24
  | none => false

/-- A word is a well-formed command word when all three checks pass (30_encoding.md R73). -/
def wellFormedWord (w : BusWord) : Bool :=
  opListed w && rsvClear w && zeroBitsClear w

end Sys2Proof
end

