-- ==== Sys2Proof/Certificates/Slice0/Obligations.lean ====
section
/-! DEFINITION. The statements for the provers. Each says which rule of spec/ it formalises. Where a statement rests on
a choice of the model or on a sentence that the spec marks as derived, its docstring says so. -/

open Sys2Proof Sys2Proof.Machine

/-! Encoding (30_encoding.md). -/

/-- Every command, with every operand its format admits, is read back from its own word. Rests on 30_encoding.md
R71, R73 and R74. -/
def Obligations.DecodeOfEncodeIsTheInstruction : Prop :=
  ∀ i : Instr, decode (encode i) = .ok i

/-- A word that decodes is the encoding of what it decodes to, so each command has exactly one encoding for each
operand value (30_encoding.md R77, which the spec marks as derived from R71 and R76). -/
def Obligations.DecodedWordIsTheEncoding : Prop :=
  ∀ (w : BusWord) (i : Instr), decode w = .ok i → encode i = w

/-- The decoder, written from R74, is the opcode map of R73: its match and mask columns, and the operands of R71 and
R72 as plain bit fields. -/
def Obligations.DecodeFollowsMatchAndMask : Prop :=
  ∀ (w : BusWord) (i : Instr), decode w = .ok i ↔
    (w &&& 0xFFFFFFFF#32 = 0x00000000#32 ∧ i = .nop) ∨
    (w &&& 0xFFFF0000#32 = 0x10000000#32 ∧ i = .setkey (w.extractLsb' 0 16)) ∨
    (w &&& 0xFFFF0000#32 = 0x20000000#32 ∧ i = .keytag (w.extractLsb' 0 16)) ∨
    (w &&& 0xFF000000#32 = 0x30000000#32 ∧ i = .setpass (w.extractLsb' 0 24)) ∨
    (w &&& 0xFFFFFF00#32 = 0x40000000#32 ∧ i = .xbyte (w.extractLsb' 0 8)) ∨
    (w &&& 0xFFFF0000#32 = 0x50000000#32 ∧ i = .xword (w.extractLsb' 0 16)) ∨
    (w &&& 0xFFFFFFFF#32 = 0xE0000000#32 ∧ i = .clrerr) ∨
    (w &&& 0xFFFFFFFF#32 = 0xF0000000#32 ∧ i = .sreset)

/-- "No two rows select the same word" (30_encoding.md R73, a sentence the spec marks as derived from the match and
mask columns). -/
def Obligations.NoWordSelectsTwoRows : Prop :=
  ∀ w : BusWord, (opcodeMap.filter (selectsRow w)).length ≤ 1

/-- The words of the spec's examples decode to the commands they stand for (30_encoding.md R79; 95_test_vectors.md
sections 4 and 5). -/
def Obligations.ExampleWordsDecode : Prop :=
  decode 0x10001234#32 = .ok (.setkey 0x1234#16) ∧ decode 0x20001234#32 = .ok (.keytag 0x1234#16) ∧
    decode 0x30000004#32 = .ok (.setpass 0x000004#24) ∧ decode 0x40000041#32 = .ok (.xbyte 0x41#8) ∧
    decode 0x50004142#32 = .ok (.xword 0x4142#16) ∧ decode 0xE0000000#32 = .ok .clrerr

/-- The decoder of R74 accepts a word exactly when the three checks of R73's prose pass. -/
def Obligations.DecodesExactlyWhenWellFormed : Prop :=
  ∀ w : BusWord, (∃ i, decode w = .ok i) ↔ wellFormedWord w = true

/-- 60_exceptions.md R160: writing to CMD a word that selects no row, that is, one whose OP is not listed, whose RSV is
not 0, or that has a `0` bit of its format set, sets ERR_ILL, which is STATUS bit 4, and changes nothing else. -/
def Obligations.IllegalWordOnlySetsErrIll : Prop :=
  (∀ (w : BusWord) (s : State), (∀ row ∈ opcodeMap, selectsRow w row = false) →
    performEvent (.write 0#3 w) s = .next { s with errIll := true }) ∧
  (∀ w : BusWord, (∀ row ∈ opcodeMap, selectsRow w row = false) ↔
    (opListed w = false ∨ rsvClear w = false ∨ zeroBitsClear w = false)) ∧
  causeCode .illegal = 4 ∧ ∀ s : State, (statusWord s).getLsbD 4 = s.errIll

/-- 30_encoding.md R75: a word with a reserved OP sets ERR_ILL and changes nothing else. -/
def Obligations.ReservedOpcodeOnlySetsErrIll : Prop :=
  ∀ (w : BusWord) (s : State), 0x6 ≤ (w.extractLsb' 28 4).toNat → (w.extractLsb' 28 4).toNat ≤ 0xD →
    performEvent (.write 0#3 w) s = .next { s with errIll := true }

/-- 30_encoding.md R76: a word with a listed OP, but with RSV or a `0` bit of its format not zero, sets ERR_ILL and
changes nothing else. -/
def Obligations.ReservedBitsOnlySetErrIll : Prop :=
  ∀ (w : BusWord) (f : Format) (s : State), formatOfOp (w.extractLsb' 28 4) = some f →
    (w.extractLsb' 24 4 ≠ 0#4 ∨ w.extractLsb' 0 24 &&& f.zeroMask ≠ 0#24) →
    performEvent (.write 0#3 w) s = .next { s with errIll := true }

/-! System commands (42_system.md). -/

/-- 42_system.md R140: NOP's encoding, its effect, and that a non-zero word with OP = 0 is illegal. -/
def Obligations.NopChangesNothing : Prop :=
  (∀ w : BusWord, w &&& 0xFFFFFFFF#32 = 0x00000000#32 → decode w = .ok .nop) ∧
  (∀ s : State, exec .nop s = .next s) ∧
  ∀ (w : BusWord) (i : Instr), w.extractLsb' 28 4 = 0x0#4 → w ≠ 0#32 → decode w ≠ .ok i

/-- 42_system.md R142: CLRERR's encoding, its effect, and that a CLRERR word with a non-zero IMM or RSV sets ERR_ILL
instead. -/
def Obligations.ClrerrClearsTheErrorFlags : Prop :=
  (∀ w : BusWord, w &&& 0xFFFFFFFF#32 = 0xE0000000#32 → decode w = .ok .clrerr) ∧
  (∀ s : State, exec .clrerr s = .next { s with errIll := false, errOvf := false, errUnf := false }) ∧
  ∀ (w : BusWord) (s : State), w.extractLsb' 28 4 = 0xE#4 → w ≠ 0xE0000000#32 →
    performEvent (.write 0#3 w) s = .next { s with errIll := true }

/-- 42_system.md R144: SRESET's encoding, that every state element of 10_state.md R20 takes its reset value of R33,
that a hardware reset changes each of them in the same way, and that an SRESET word with a non-zero IMM or RSV does not
reset. -/
def Obligations.SresetRestoresResetValues : Prop :=
  (∀ w : BusWord, w &&& 0xFFFFFFFF#32 = 0xF0000000#32 → decode w = .ok .sreset) ∧
  (∀ s : State, ∃ t, exec .sreset s = .next t ∧ performEvent .hardwareReset s = .next t ∧
    t.key = 0x0000#16 ∧ t.keyinit = 0x0000#16 ∧ t.pass = 0x000000#24 ∧ t.phase = .high ∧ t.outCnt = 0#2 ∧
    t.dout = 0x0000#16 ∧ t.errIll = false ∧ t.errOvf = false ∧ t.errUnf = false ∧ t.count = 0x00000000#32) ∧
  ∀ (w : BusWord) (s : State), w.extractLsb' 28 4 = 0xF#4 → w ≠ 0xF0000000#32 →
    performEvent (.write 0#3 w) s = .next { s with errIll := true }

/-! Key and message control (40_key_control.md). -/

/-- 40_key_control.md R90: SETKEY's encoding and effect, in every state, whatever OUT_CNT is; nothing but KEY, KEYINIT,
PHASE and COUNT changes. -/
def Obligations.SetkeyLoadsTheKey : Prop :=
  (∀ w : BusWord, w &&& 0xFFFF0000#32 = 0x10000000#32 → decode w = .ok (.setkey (w.extractLsb' 0 16))) ∧
  ∀ (k : Key) (s : State),
    exec (.setkey k) s = .next { s with key := k, keyinit := k, phase := .high, count := 0#32 }

/-- 40_key_control.md R92: KEYTAG's encoding and effect; the key is 0x4A48 ^ T, and nothing but KEY, KEYINIT, PHASE and
COUNT changes. -/
def Obligations.KeytagLoadsTheTagKey : Prop :=
  (∀ w : BusWord, w &&& 0xFFFF0000#32 = 0x20000000#32 → decode w = .ok (.keytag (w.extractLsb' 0 16))) ∧
  ∀ (x : DataWord) (s : State),
    exec (.keytag x) s =
      .next { s with key := 0x4A48#16 ^^^ x, keyinit := 0x4A48#16 ^^^ x, phase := .high, count := 0#32 }

/-- 40_key_control.md R94: SETPASS's encoding and effect; it writes PASS and changes no other state. -/
def Obligations.SetpassLoadsThePassthroughCount : Prop :=
  (∀ w : BusWord, w &&& 0xFF000000#32 = 0x30000000#32 → decode w = .ok (.setpass (w.extractLsb' 0 24))) ∧
  ∀ (p : PassCount) (s : State), exec (.setpass p) s = .next { s with pass := p }

/-- KEYTAG T behaves exactly as SETKEY (0x4A48 ^ T), and so gives the keys of the three corner cases. The sentence of
40_key_control.md R93 is marked as derived. -/
def Obligations.KeytagIsSetkeyOfTheXoredHalf : Prop :=
  (∀ (x : DataWord) (s : State), exec (.keytag x) s = exec (.setkey (0x4A48#16 ^^^ x)) s) ∧
  keyOfTag 0x4A48#16 = 0x0000#16 ∧ keyOfTag 0x0000#16 = 0x4A48#16 ∧ keyOfTag 0xFFFF#16 = 0xB5B7#16

/-- For a matched JH tag of four bytes, KEYTAG of the tag's low half loads the XOR of the tag's two halves
(20_memory.md R58, 40_key_control.md R92, 90_conflicts.md C1). -/
def Obligations.TagKeyIsTheXorOfTheTagHalves : Prop :=
  ∀ (t0 t1 t2 t3 : Byte) (s : State), isJhTag (tagHeader t0 t1 t2 t3) = true →
    exec (.keytag (tagLowHalf (tagHeader t0 t1 t2 t3))) s =
      .next { s with
        key := (t0 ++ t1) ^^^ (t2 ++ t3), keyinit := (t0 ++ t1) ^^^ (t2 ++ t3), phase := .high, count := 0#32 }

/-- SETPASS and SETKEY give the same state in either order, and the one that R96 describes (40_key_control.md R96, which
the spec marks as derived from R90 and R94). -/
def Obligations.SetpassAndSetkeyCommute : Prop :=
  ∀ (k : Key) (p : PassCount) (s : State),
    performAll [.write 0#3 (encode (.setpass p)), .write 0#3 (encode (.setkey k))] s =
      .next { s with pass := p, key := k, keyinit := k, phase := .high, count := 0#32 } ∧
    performAll [.write 0#3 (encode (.setkey k)), .write 0#3 (encode (.setpass p))] s =
      .next { s with pass := p, key := k, keyinit := k, phase := .high, count := 0#32 }

/-! The data commands (41_data_transform.md). -/

/-- 41_data_transform.md R116, with the engine step of R113 written out: XBYTE's encoding, the overrun, and the three
kinds of byte; nothing else changes in any of them. -/
def Obligations.XbyteTransformsOneByte : Prop :=
  (∀ w : BusWord, w &&& 0xFFFFFF00#32 = 0x40000000#32 → decode w = .ok (.xbyte (w.extractLsb' 0 8))) ∧
  ∀ (b : Byte) (s : State),
    (s.outCnt ≠ 0#2 → exec (.xbyte b) s = .next { s with errOvf := true }) ∧
    (s.outCnt = 0#2 → s.pass ≠ 0#24 →
      exec (.xbyte b) s =
        .next { s with pass := s.pass - 1#24, count := s.count + 1#32, dout := b.setWidth 16, outCnt := 1#2 }) ∧
    (s.outCnt = 0#2 → s.pass = 0#24 → s.phase = .high →
      exec (.xbyte b) s =
        .next { s with
          phase := .low, count := s.count + 1#32, dout := (b ^^^ s.key.extractLsb' 8 8).setWidth 16,
          outCnt := 1#2 }) ∧
    (s.outCnt = 0#2 → s.pass = 0#24 → s.phase = .low →
      exec (.xbyte b) s =
        .next { s with
          phase := .high, key := BitVec.ofNat 16 ((s.key.toNat <<< 4) + s.key.toNat + 87), count := s.count + 1#32,
          dout := (b ^^^ s.key.extractLsb' 0 8).setWidth 16, outCnt := 1#2 })

/-- 41_data_transform.md R117, with the two engine steps of R113 written out for every PASS and PHASE: XWORD's
encoding, the overrun, both bytes in the prefix, the first byte the last of the prefix (in either phase), a whole word
position, and a word that completes one position and starts the next; nothing else changes in any of them. -/
def Obligations.XwordTransformsTwoBytes : Prop :=
  (∀ w : BusWord, w &&& 0xFFFF0000#32 = 0x50000000#32 → decode w = .ok (.xword (w.extractLsb' 0 16))) ∧
  ∀ (w : DataWord) (s : State),
    (s.outCnt ≠ 0#2 → exec (.xword w) s = .next { s with errOvf := true }) ∧
    (s.outCnt = 0#2 → 2 ≤ s.pass.toNat →
      exec (.xword w) s =
        .next { s with pass := s.pass - 2#24, count := s.count + 2#32, dout := w, outCnt := 2#2 }) ∧
    (s.outCnt = 0#2 → s.pass = 1#24 → s.phase = .high →
      exec (.xword w) s =
        .next { s with
          pass := 0#24, phase := .low, count := s.count + 2#32,
          dout := w.extractLsb' 8 8 ++ (w.extractLsb' 0 8 ^^^ s.key.extractLsb' 8 8), outCnt := 2#2 }) ∧
    (s.outCnt = 0#2 → s.pass = 1#24 → s.phase = .low →
      exec (.xword w) s =
        .next { s with
          pass := 0#24, phase := .high, key := BitVec.ofNat 16 ((s.key.toNat <<< 4) + s.key.toNat + 87), count := s.count + 2#32,
          dout := w.extractLsb' 8 8 ++ (w.extractLsb' 0 8 ^^^ s.key.extractLsb' 0 8), outCnt := 2#2 }) ∧
    (s.outCnt = 0#2 → s.pass = 0#24 → s.phase = .high →
      exec (.xword w) s =
        .next { s with
          key := BitVec.ofNat 16 ((s.key.toNat <<< 4) + s.key.toNat + 87), count := s.count + 2#32, dout := w ^^^ s.key,
          outCnt := 2#2 }) ∧
    (s.outCnt = 0#2 → s.pass = 0#24 → s.phase = .low →
      exec (.xword w) s =
        .next { s with
          key := BitVec.ofNat 16 ((s.key.toNat <<< 4) + s.key.toNat + 87), count := s.count + 2#32,
          dout := (w.extractLsb' 8 8 ^^^ s.key.extractLsb' 0 8) ++
            (w.extractLsb' 0 8 ^^^ (BitVec.ofNat 16 ((s.key.toNat <<< 4) + s.key.toNat + 87)).extractLsb' 8 8),
          outCnt := 2#2 })

/-- XWORD W with its DOUT read is XBYTE W[15:8] and XBYTE W[7:0] with theirs: the same state but for the replies, and
the one reply carries the two output bytes, the first in bits 15:8 (41_data_transform.md R117, a sentence the spec marks
as derived). -/
def Obligations.XwordIsTwoXbytes : Prop :=
  ∀ (w : DataWord) (s : State), s.outCnt = 0#2 →
    ∃ (t : State) (y1 y2 : Byte),
      performAll [.write 0#3 (encode (.xword w)), .read 5#3] s =
        .next { t with replies := s.replies ++ [(y1 ++ y2).setWidth 32] } ∧
      performAll [.write 0#3 (encode (.xbyte (w.extractLsb' 8 8))), .read 5#3,
          .write 0#3 (encode (.xbyte (w.extractLsb' 0 8))), .read 5#3] s =
        .next { t with replies := s.replies ++ [y1.setWidth 32, y2.setWidth 32] }

/-- 60_exceptions.md R161: a legal XBYTE or XWORD while output is held sets ERR_OVF, which is STATUS bit 5, and changes
nothing else. -/
def Obligations.DataCommandWhileOutputIsHeldOverruns : Prop :=
  (∀ (b : Byte) (s : State), s.outCnt ≠ 0#2 →
    performEvent (.write 0#3 (encode (.xbyte b))) s = .next { s with errOvf := true }) ∧
  (∀ (w : DataWord) (s : State), s.outCnt ≠ 0#2 →
    performEvent (.write 0#3 (encode (.xword w))) s = .next { s with errOvf := true }) ∧
  causeCode .overrun = 5 ∧ ∀ s : State, (statusWord s).getLsbD 5 = s.errOvf

/-- 41_data_transform.md R112: the key update as the source's shift and add, modulo 2^16, and its worked example. The
second form, 17k + 87, and the remark on truncation are marked as derived and stand in the next statement. -/
def Obligations.NextKeyIsTheShiftAndAddUpdate : Prop :=
  (∀ k : Key, (nextKey k).toNat = ((k.toNat <<< 4) + k.toNat + 87) % 2 ^ 16) ∧ nextKey 0x1234#16 = 0x35CB#16

/-- The key update is 17k + 87 modulo 2^16, and truncating the shifted key to 16 bits before the addition gives the
same key (41_data_transform.md R112, the two sentences that the spec marks as derived). -/
def Obligations.NextKeyIsSeventeenTimesTheKeyPlus87 : Prop :=
  ∀ k : Key, (nextKey k).toNat = (17 * k.toNat + 87) % 2 ^ 16 ∧ nextKey k = (k <<< 4) + k + 87#16

/-- 41_data_transform.md R119: a read of DOUT while output is held answers it, zero-extended, and empties it, with no
other effect; after XBYTE the reply is the output byte, after XWORD the two output bytes, the first in bits 15:8. -/
def Obligations.DoutReadReturnsAndEmptiesTheOutput : Prop :=
  (∀ s : State, s.outCnt ≠ 0#2 →
    performEvent (.read 5#3) s =
      .next { s with dout := 0#16, outCnt := 0#2, replies := s.replies ++ [s.dout.setWidth 32] }) ∧
  (∀ (b : Byte) (s t : State), s.outCnt = 0#2 → exec (.xbyte b) s = .next t →
    readValue .dout t = (engineStep b s).1.setWidth 32) ∧
  (∀ (w : DataWord) (s t : State), s.outCnt = 0#2 → exec (.xword w) s = .next t →
    readValue .dout t =
      0#16 ++ (engineStep (w.extractLsb' 8 8) s).1 ++
        (engineStep (w.extractLsb' 0 8) (engineStep (w.extractLsb' 8 8) s).2).1)

/-- 60_exceptions.md R162 and 41_data_transform.md R120: a read of DOUT while no output is held answers 0 and sets
ERR_UNF, which is STATUS bit 6, and changes nothing else. -/
def Obligations.EmptyDoutReadUnderruns : Prop :=
  (∀ s : State, s.outCnt = 0#2 →
    performEvent (.read 5#3) s = .next { s with errUnf := true, replies := s.replies ++ [0x00000000#32] }) ∧
  causeCode .underrun = 6 ∧ ∀ s : State, (statusWord s).getLsbD 6 = s.errUnf

/-! The register space (20_memory.md). -/

/-- A read of CMD, KEY, KEYINIT, PASS, STATUS, COUNT or ID answers the value of R52 and changes no state of the block,
and two such reads of one register, with any reads between them, answer the same value; between two reads of STATUS
alone no DOUT read may stand. If no DOUT is read between, the state of the block stays as well. (20_memory.md R53. That
a DOUT read between two STATUS reads is left out, where R53 speaks of any two reads with no write between, is the
model's choice, which follows 41_data_transform.md R119 and R120: log entry 11.) -/
def Obligations.RegisterReadsReturnTheirValuesAndChangeNothing : Prop :=
  (∀ s : State,
    performEvent (.read 0#3) s = .next { s with replies := s.replies ++ [0x00000000#32] } ∧
    performEvent (.read 1#3) s = .next { s with replies := s.replies ++ [s.key.setWidth 32] } ∧
    performEvent (.read 2#3) s = .next { s with replies := s.replies ++ [s.keyinit.setWidth 32] } ∧
    performEvent (.read 3#3) s = .next { s with replies := s.replies ++ [s.pass.setWidth 32] } ∧
    performEvent (.read 4#3) s = .next { s with replies := s.replies ++ [statusWord s] } ∧
    performEvent (.read 6#3) s = .next { s with replies := s.replies ++ [s.count] } ∧
    performEvent (.read 7#3) s = .next { s with replies := s.replies ++ [0x4A480001#32] }) ∧
  ∀ (i : RegIndex) (js : List RegIndex) (s : State), i ≠ 5#3 → (i = 4#3 → ∀ j ∈ js, j ≠ 5#3) →
    ∃ (t : State) (v : BusWord) (vs : List BusWord),
      performAll (.read i :: js.map .read ++ [.read i]) s = .next t ∧
      vs.length = js.length ∧ t.replies = s.replies ++ (v :: vs ++ [v]) ∧
      ((∀ j ∈ js, j ≠ 5#3) → t = { s with replies := t.replies })

/-- 20_memory.md R54: a write to any register but CMD changes no state and sets no error flag, and a read of CMD
answers 0 and changes no state of the block. -/
def Obligations.WritesOutsideCmdAreIgnored : Prop :=
  (∀ (i : RegIndex) (v : BusWord) (s : State), i ≠ 0#3 → performEvent (.write i v) s = .next s) ∧
  ∀ s : State, performEvent (.read 0#3) s = .next { s with replies := s.replies ++ [0x00000000#32] }

/-- The layout of STATUS, bit by bit (10_state.md R24). -/
def Obligations.StatusHasItsLayout : Prop :=
  ∀ s : State,
    (statusWord s).getLsbD 0 = decide (s.phase = .low) ∧ (statusWord s).extractLsb' 1 2 = s.outCnt ∧
    (statusWord s).getLsbD 3 = false ∧ (statusWord s).getLsbD 4 = s.errIll ∧ (statusWord s).getLsbD 5 = s.errOvf ∧
    (statusWord s).getLsbD 6 = s.errUnf ∧ (statusWord s).extractLsb' 7 25 = 0#25

/-- The eight registers stand at the offsets 0x00, 0x04, ..., 0x1C, and the block reads bits 4:2 of an offset only
(20_memory.md R51, R52). -/
def Obligations.RegistersStandAtTheirOffsets : Prop :=
  [Reg.cmd, .key, .keyinit, .pass, .status, .dout, .count, .id].map regOffset =
    [0x00, 0x04, 0x08, 0x0C, 0x10, 0x14, 0x18, 0x1C] ∧
  (∀ (r : Reg) (off : BitVec 32), off.toNat = regOffset r → regOfIndex (indexOfOffset off) = r) ∧
  ∀ off : BitVec 32, (indexOfOffset off).toNat = off.toNat / 4 % 8

/-! Errors (60_exceptions.md). -/

/-- An error flag that was clear is set only by its own cause: ERR_ILL by an illegal word written to CMD, ERR_OVF by an
XBYTE or XWORD while output is held, ERR_UNF by a read of DOUT while none is held. So one access raises at most one flag,
in the order of R165 (60_exceptions.md R160 to R165; 10_state.md R27). -/
def Obligations.ErrorFlagIsSetOnlyByItsCause : Prop :=
  ∀ (e : BusEvent) (c : ErrorCause) (s t : State), performEvent e s = .next t →
    errorFlag c s = false → errorFlag c t = true →
    (c = .illegal ∧ ∃ w, e = .write 0#3 w ∧ wellFormedWord w = false) ∨
    (c = .overrun ∧ WritesCommand ["XBYTE", "XWORD"] e ∧ s.outCnt ≠ 0#2) ∨
    (c = .underrun ∧ e = .read 5#3 ∧ s.outCnt = 0#2)

/-- An error flag that is set is cleared only by CLRERR and by a reset (60_exceptions.md R167; 10_state.md R27). That a
power-up is a reset is log entry 4. -/
def Obligations.ErrorFlagIsClearedOnlyByClrerrOrReset : Prop :=
  ∀ (e : BusEvent) (c : ErrorCause) (s t : State), performEvent e s = .next t →
    errorFlag c s = true → errorFlag c t = false → WritesCommand ["CLRERR"] e ∨ ResetsBlock e

/-- No command reads the error flags, and none is held up by them: from two states that differ in the error flags
alone, a command goes to two next states that differ in the error flags alone (10_state.md R27; 60_exceptions.md R166). -/
def Obligations.ErrorFlagsDoNotInfluenceCommands : Prop :=
  ∀ (i : Instr) (s : State) (x y z : Bool),
    ∃ t u : State, exec i s = .next t ∧ exec i { s with errIll := x, errOvf := y, errUnf := z } = .next u ∧
      u = { t with errIll := u.errIll, errOvf := u.errOvf, errUnf := u.errUnf }

/-- Every event is performed, in every state: the block never stops (60_exceptions.md R166, R169; 20_memory.md R61).
That an idle step leaves the state is the model's choice, log entry 2. -/
def Obligations.EveryEventAndStepCompletes : Prop :=
  (∀ (e : BusEvent) (s : State), ∃ t, performEvent e s = .next t) ∧ ∀ s : State, ∃ t, step s = .next t

/-! Whole-machine rules about the registers (10_state.md). -/

/-- Each register changes only by the commands and events that its rule lists: KEYINIT by key loads and reset (R22),
KEY by key loads, the engine and reset (R21), PASS by SETPASS, the engine and reset (R23), PHASE and COUNT by key
loads, the engine and reset (R25, R28), DOUT and OUT_CNT by the data commands, the DOUT read and reset (R26). -/
def Obligations.RegistersChangeOnlyByTheirWriters : Prop :=
  ∀ (e : BusEvent) (s t : State), performEvent e s = .next t →
    (t.keyinit ≠ s.keyinit → WritesCommand ["SETKEY", "KEYTAG"] e ∨ ResetsBlock e) ∧
    (t.key ≠ s.key → WritesCommand ["SETKEY", "KEYTAG", "XBYTE", "XWORD"] e ∨ ResetsBlock e) ∧
    (t.pass ≠ s.pass → WritesCommand ["SETPASS", "XBYTE", "XWORD"] e ∨ ResetsBlock e) ∧
    (t.phase ≠ s.phase → WritesCommand ["SETKEY", "KEYTAG", "XBYTE", "XWORD"] e ∨ ResetsBlock e) ∧
    (t.count ≠ s.count → WritesCommand ["SETKEY", "KEYTAG", "XBYTE", "XWORD"] e ∨ ResetsBlock e) ∧
    (t.dout ≠ s.dout ∨ t.outCnt ≠ s.outCnt →
      WritesCommand ["XBYTE", "XWORD"] e ∨ e = .read 5#3 ∨ ResetsBlock e)

/-- The commands other than XBYTE, XWORD and SRESET leave the pending output in DOUT (70_reset_and_hazards.md R185). -/
def Obligations.OtherCommandsLeaveThePendingOutput : Prop :=
  ∀ (i : Instr) (s : State), mnemonic i ∉ ["XBYTE", "XWORD", "SRESET"] →
    ∃ t, exec i s = .next t ∧ t.dout = s.dout ∧ t.outCnt = s.outCnt

/-- A read right after any write, to any register, answers from the state that the write leaves; and so, with the
values written out: KEY and KEYINIT after SETKEY and after KEYTAG, PASS after SETPASS, DOUT after XBYTE and after XWORD,
STATUS after a data command that overruns, after an illegal word and after CLRERR, and every register but DOUT after
SRESET (70_reset_and_hazards.md R186, the sentence "a read immediately after a write sees the write's full effect"). -/
def Obligations.ReadAfterWriteSeesTheWrite : Prop :=
  (∀ (i : RegIndex) (v : BusWord) (s : State), ∃ t : State,
    performEvent (.write i v) s = .next t ∧ ∀ j : RegIndex,
      performAll [.write i v, .read j] s =
        .next { readEffect (regOfIndex j) t with replies := s.replies ++ [readValue (regOfIndex j) t] }) ∧
  ∀ s : State,
    (∀ k : Key, performAll [.write 0#3 (encode (.setkey k)), .read 1#3, .read 2#3] s =
      .next { s with
        key := k, keyinit := k, phase := .high, count := 0#32,
        replies := s.replies ++ [k.setWidth 32, k.setWidth 32] }) ∧
    (∀ x : DataWord, performAll [.write 0#3 (encode (.keytag x)), .read 1#3, .read 2#3] s =
      .next { s with
        key := 0x4A48#16 ^^^ x, keyinit := 0x4A48#16 ^^^ x, phase := .high, count := 0#32,
        replies := s.replies ++ [(0x4A48#16 ^^^ x).setWidth 32, (0x4A48#16 ^^^ x).setWidth 32] }) ∧
    (∀ p : PassCount, performAll [.write 0#3 (encode (.setpass p)), .read 3#3] s =
      .next { s with pass := p, replies := s.replies ++ [p.setWidth 32] }) ∧
    (∀ b : Byte, s.outCnt = 0#2 → performAll [.write 0#3 (encode (.xbyte b)), .read 5#3] s =
      .next { (engineStep b s).2 with
        dout := 0#16, outCnt := 0#2, replies := s.replies ++ [(engineStep b s).1.setWidth 32] }) ∧
    (∀ w : DataWord, s.outCnt = 0#2 → performAll [.write 0#3 (encode (.xword w)), .read 5#3] s =
      .next { (engineRun [w.extractLsb' 8 8, w.extractLsb' 0 8] s).2 with
        dout := 0#16, outCnt := 0#2,
        replies := s.replies ++
          [0#16 ++ (engineStep (w.extractLsb' 8 8) s).1 ++
            (engineStep (w.extractLsb' 0 8) (engineStep (w.extractLsb' 8 8) s).2).1] }) ∧
    (∀ b : Byte, s.outCnt ≠ 0#2 → performAll [.write 0#3 (encode (.xbyte b)), .read 4#3] s =
      .next { s with errOvf := true, replies := s.replies ++ [statusWord s ||| 0x00000020#32] }) ∧
    (∀ w : DataWord, s.outCnt ≠ 0#2 → performAll [.write 0#3 (encode (.xword w)), .read 4#3] s =
      .next { s with errOvf := true, replies := s.replies ++ [statusWord s ||| 0x00000020#32] }) ∧
    (∀ w : BusWord, wellFormedWord w = false → performAll [.write 0#3 w, .read 4#3] s =
      .next { s with errIll := true, replies := s.replies ++ [statusWord s ||| 0x00000010#32] }) ∧
    performAll [.write 0#3 (encode .clrerr), .read 4#3] s =
      .next { s with
        errIll := false, errOvf := false, errUnf := false,
        replies := s.replies ++ [statusWord s &&& 0xFFFFFF8F#32] } ∧
    performAll [.write 0#3 (encode .sreset), .read 1#3, .read 2#3, .read 3#3, .read 4#3, .read 6#3, .read 7#3] s =
      .next { State.reset with
        issued := s.issued,
        replies := s.replies ++ [0#32, 0#32, 0#32, 0#32, 0#32, 0x4A480001#32] }

/-! Reset (10_state.md R33; 70_reset_and_hazards.md). -/

/-- 10_state.md R33: every register's value after a hardware reset or SRESET and in the reset state, and the constant
ID. -/
def Obligations.EveryRegisterHasItsResetValue : Prop :=
  (∀ s t : State, (t = State.reset ∨ performEvent .hardwareReset s = .next t ∨ exec .sreset s = .next t) →
    t.key = 0x0000#16 ∧ t.keyinit = 0x0000#16 ∧ t.pass = 0x000000#24 ∧ t.phase = .high ∧ t.outCnt = 0#2 ∧
    t.dout = 0x0000#16 ∧ t.errIll = false ∧ t.errOvf = false ∧ t.errUnf = false ∧ t.count = 0x00000000#32 ∧
    readValue .id t = 0x4A480001#32)

/-- A hardware reset is the state change of SRESET (70_reset_and_hazards.md R181, marked as derived), and so is a
power-up (60_exceptions.md R174). That the host's side of the bus, what is issued and what is answered, is not reset is
the model's choice, log entries 1, 3 and 4. -/
def Obligations.HardwareResetIsTheChangeOfSreset : Prop :=
  ∀ s : State,
    performEvent .hardwareReset s = .next { State.reset with issued := s.issued, replies := s.replies } ∧
    performEvent .powerUp s = performEvent .hardwareReset s ∧ exec .sreset s = performEvent .hardwareReset s

/-- The output holding register is as the spec promises in the reset state (10_state.md R24, R26, R33). -/
def Obligations.ResetStateHasWellFormedOutput : Prop :=
  OutputWellFormed State.reset

/-- Every step keeps the promise about the output holding register: OUT_CNT is never 3, an empty DOUT is 0, and a
single output byte is zero-extended (10_state.md R24, R26). -/
def Obligations.StepKeepsTheOutputWellFormed : Prop :=
  ∀ s t : State, OutputWellFormed s → step s = .next t → OutputWellFormed t

/-! Steps (20_memory.md R62). -/

/-- A step performs the oldest issued event, and with nothing issued it waits. Both are the model's form of R62, log
entries 1 and 2. -/
def Obligations.StepPerformsTheOldestEvent : Prop :=
  (∀ (e : BusEvent) (rest : List BusEvent) (s : State), s.issued = e :: rest →
    step s = performEvent e { s with issued := rest }) ∧
  ∀ s : State, s.issued = [] → step s = .next s

/-- When the next access writes to CMD a word that decodes, the step is the meaning of the decoded command, once the
access is taken off the list (30_encoding.md R70; log entry 1). -/
def Obligations.StepRunsTheDecodedCommand : Prop :=
  ∀ (w : BusWord) (i : Instr) (rest : List BusEvent) (s : State),
    s.issued = .write 0#3 w :: rest → decode w = .ok i → step s = exec i { s with issued := rest }

/-- From a state in which the host's next access writes the word of a command to CMD, the step is that command's
meaning (withFetchWord of log entry 1; 30_encoding.md R70). -/
def Obligations.WithFetchWordRunsTheCommand : Prop :=
  ∀ (i : Instr) (s : State), step (s.withFetchWord 32 (encode i).toNat) = exec i s

/-- Running as many steps as events are issued performs the events in the order of issue, each before the next, and
leaves nothing issued (20_memory.md R62; the list is log entry 1). -/
def Obligations.RunPerformsEventsInIssueOrder : Prop :=
  ∀ (es : List BusEvent) (s : State),
    Host.Core.run Sys2Proof.core es.length { s with issued := es } = performAll es { s with issued := [] }

/-- 30_encoding.md R80: the exact expansions of the four pseudo-instructions. -/
def Obligations.PseudoInstructionsExpandExactly : Prop :=
  (∀ (k : Key) (p : PassCount), expandPseudo (.beginKey k p) = [.command (.setpass p), .command (.setkey k)]) ∧
  (∀ (x : DataWord) (p : PassCount), expandPseudo (.beginTag x p) = [.command (.setpass p), .command (.keytag x)]) ∧
  (∀ b : Byte, expandPseudo (.xb b) = [.command (.xbyte b), .rd .dout]) ∧
  ∀ w : DataWord, expandPseudo (.xw w) = [.command (.xword w), .rd .dout]

/-! The cipher (41_data_transform.md). -/

/-- The engine computes Apply: from PASS = p, PHASE = 0 and KEY = k0, the bytes that the engine step returns for the
bytes of b, in order, are Apply(b, k0, p) (41_data_transform.md R114, marked as derived from R110 to R113). -/
def Obligations.EngineComputesApply : Prop :=
  ∀ (b : List Byte) (s : State), s.phase = .high → (engineRun b s).1 = cipherApply b s.key s.pass.toNat

/-- The engine's state after the bytes of b: PASS, PHASE and KEY as R114 gives them, COUNT advanced by the length
modulo 2^32 (R113), and everything else as before (41_data_transform.md R114, marked as derived). -/
def Obligations.EngineStateAfterBytes : Prop :=
  ∀ (b : List Byte) (s : State), s.phase = .high →
    (b.length ≤ s.pass.toNat → (engineRun b s).2 =
      { s with pass := s.pass - BitVec.ofNat 24 b.length, count := s.count + BitVec.ofNat 32 b.length }) ∧
    (s.pass.toNat < b.length → (engineRun b s).2 =
      { s with
        pass := 0#24, phase := if (b.length - s.pass.toNat) % 2 = 0 then .high else .low,
        key := keystream s.key ((b.length - s.pass.toNat) / 2), count := s.count + BitVec.ofNat 32 b.length })

/-- Apply, byte by byte: the prefix is verbatim, byte p + 2n is XORed with the high byte of k(n), byte p + 2n + 1 with
its low byte; a lone byte is the first of these two cases (41_data_transform.md R110, R111; the indexed form is the last
sentence of R114, marked as derived). -/
def Obligations.ApplyXorsEachByteWithTheKeystream : Prop :=
  ∀ (b : List Byte) (k : Key) (p n : Nat),
    (n < p → (cipherApply b k p)[n]? = b[n]?) ∧
    (cipherApply b k p)[p + 2 * n]? = (b[p + 2 * n]?).map (· ^^^ (keystream k n).extractLsb' 8 8) ∧
    (cipherApply b k p)[p + 2 * n + 1]? = (b[p + 2 * n + 1]?).map (· ^^^ (keystream k n).extractLsb' 0 8)

/-- Apply gives as many bytes as it is given (41_data_transform.md R110). -/
def Obligations.ApplyKeepsTheLength : Prop :=
  ∀ (b : List Byte) (k : Key) (p : Nat), (cipherApply b k p).length = b.length

/-- The cipher is its own inverse, for every buffer, key and passthrough (41_data_transform.md R122, marked as derived;
it is the source's testable property S2 of 95_test_vectors.md). -/
def Obligations.ApplyIsSelfInverse : Prop :=
  ∀ (b : List Byte) (k : Key) (p : Nat), cipherApply (cipherApply b k p) k p = b

/-- The engine's state after a message depends on the key, the prefix and the number of bytes, never on the data
(41_data_transform.md R122: "The keystream depends only on `k` and on byte positions, never on the data", in a rule the
spec marks as derived). -/
def Obligations.EngineStateDoesNotDependOnTheData : Prop :=
  ∀ (b c : List Byte) (s : State), b.length = c.length → (engineRun b s).2 = (engineRun c s).2

/-- 41_data_transform.md R115: a message no longer than its prefix comes back unchanged, from Apply and from the
engine, which raises no error; the empty buffer gives the empty result. -/
def Obligations.ShortMessagePassesVerbatim : Prop :=
  (∀ (b : List Byte) (k : Key) (p : Nat), b.length ≤ p → cipherApply b k p = b) ∧
  (∀ (b : List Byte) (s : State), b.length ≤ s.pass.toNat →
    (engineRun b s).1 = b ∧ SameErrors s (engineRun b s).2) ∧
  ∀ (k : Key) (p : Nat), cipherApply [] k p = []

/-- The key sequence has period exactly 65536 from every key, and takes every 16-bit value exactly once in each run of
65536 positions (41_data_transform.md R123, which the spec established by enumeration and marks as derived from R112). -/
def Obligations.KeystreamHasPeriod65536 : Prop :=
  (∀ (k : Key) (n : Nat), keystream k n = k ↔ 65536 ∣ n) ∧
  ∀ (k v : Key) (a : Nat), ∃! n, (a ≤ n ∧ n < a + 65536) ∧ keystream k n = v

/-! The host's protocol (41_data_transform.md R118; 70_reset_and_hazards.md R183). -/

/-- A message sent as R118 says, from any state without pending output, in any mixture of XBYTE and XWORD, collects
Apply(b, k, p), raises no error, and leaves no pending output; so does one that starts with BEGINTAG, for the key that
KEYTAG loads (30_encoding.md R80; 40_key_control.md R92, R93). R118 is marked as derived from R114, R116 and R117; the
list of events and the replies are the model's, log entries 1 and 3. -/
def Obligations.SentMessageCollectsApply : Prop :=
  ∀ (start : Pseudo) (k : Key) (p : PassCount) (cs : List Chunk) (s : State),
    (start = .beginKey k p ∨ ∃ x : DataWord, start = .beginTag x p ∧ k = 0x4A48#16 ^^^ x) → s.outCnt = 0#2 →
    ∃ (t : State) (reads : List BusWord),
      Host.Core.run Sys2Proof.core (messageEvents start cs).length { s with issued := messageEvents start cs } =
        .next t ∧
      t.replies = s.replies ++ reads ∧ reads.length = cs.length ∧
      collectOutput cs reads = cipherApply (messageBytes cs) k p.toNat ∧
      SameErrors s t ∧ t.outCnt = 0#2 ∧ t.keyinit = k ∧ t.issued = []

/-- A message sent from the reset state with no SETKEY and no SETPASS collects Apply(b, 0x0000, 0), without an error
(70_reset_and_hazards.md R183, marked as derived; the list of events and the replies are log entries 1 and 3). -/
def Obligations.MessageAfterResetUsesKeyZero : Prop :=
  ∀ cs : List Chunk, ∃ (t : State) (reads : List BusWord),
    performAll (assemblePseudos (cs.map chunkPseudo)) State.reset = .next t ∧
    t.replies = reads ∧ reads.length = cs.length ∧
    collectOutput cs reads = cipherApply (messageBytes cs) 0x0000#16 0 ∧ NoError t
end

