-- ==== Sys2Proof/Laws/State.lean ====
section
/-! SUPPORT. One lemma per field of State for each named update, so that no later proof unfolds a record update. -/

namespace Sys2Proof.Machine

/-! A key load (40_key_control.md R90, R92). -/

@[simp] theorem loadKey_key (k : Key) (s : State) : (loadKey k s).key = k := rfl
@[simp] theorem loadKey_keyinit (k : Key) (s : State) : (loadKey k s).keyinit = k := rfl
@[simp] theorem loadKey_pass (k : Key) (s : State) : (loadKey k s).pass = s.pass := rfl
@[simp] theorem loadKey_phase (k : Key) (s : State) : (loadKey k s).phase = .high := rfl
@[simp] theorem loadKey_outCnt (k : Key) (s : State) : (loadKey k s).outCnt = s.outCnt := rfl
@[simp] theorem loadKey_dout (k : Key) (s : State) : (loadKey k s).dout = s.dout := rfl
@[simp] theorem loadKey_errIll (k : Key) (s : State) : (loadKey k s).errIll = s.errIll := rfl
@[simp] theorem loadKey_errOvf (k : Key) (s : State) : (loadKey k s).errOvf = s.errOvf := rfl
@[simp] theorem loadKey_errUnf (k : Key) (s : State) : (loadKey k s).errUnf = s.errUnf := rfl
@[simp] theorem loadKey_count (k : Key) (s : State) : (loadKey k s).count = 0#32 := rfl
@[simp] theorem loadKey_issued (k : Key) (s : State) : (loadKey k s).issued = s.issued := rfl
@[simp] theorem loadKey_replies (k : Key) (s : State) : (loadKey k s).replies = s.replies := rfl

/-! A passthrough load (40_key_control.md R94). -/

@[simp] theorem loadPass_key (p : PassCount) (s : State) : (loadPass p s).key = s.key := rfl
@[simp] theorem loadPass_keyinit (p : PassCount) (s : State) : (loadPass p s).keyinit = s.keyinit := rfl
@[simp] theorem loadPass_pass (p : PassCount) (s : State) : (loadPass p s).pass = p := rfl
@[simp] theorem loadPass_phase (p : PassCount) (s : State) : (loadPass p s).phase = s.phase := rfl
@[simp] theorem loadPass_outCnt (p : PassCount) (s : State) : (loadPass p s).outCnt = s.outCnt := rfl
@[simp] theorem loadPass_dout (p : PassCount) (s : State) : (loadPass p s).dout = s.dout := rfl
@[simp] theorem loadPass_errIll (p : PassCount) (s : State) : (loadPass p s).errIll = s.errIll := rfl
@[simp] theorem loadPass_errOvf (p : PassCount) (s : State) : (loadPass p s).errOvf = s.errOvf := rfl
@[simp] theorem loadPass_errUnf (p : PassCount) (s : State) : (loadPass p s).errUnf = s.errUnf := rfl
@[simp] theorem loadPass_count (p : PassCount) (s : State) : (loadPass p s).count = s.count := rfl
@[simp] theorem loadPass_issued (p : PassCount) (s : State) : (loadPass p s).issued = s.issued := rfl
@[simp] theorem loadPass_replies (p : PassCount) (s : State) : (loadPass p s).replies = s.replies := rfl

/-! Holding an output (41_data_transform.md R116, R117). -/

@[simp] theorem holdOutput_key (v : DataWord) (n : BitVec 2) (s : State) : (holdOutput v n s).key = s.key := rfl
@[simp] theorem holdOutput_keyinit (v : DataWord) (n : BitVec 2) (s : State) : (holdOutput v n s).keyinit = s.keyinit := rfl
@[simp] theorem holdOutput_pass (v : DataWord) (n : BitVec 2) (s : State) : (holdOutput v n s).pass = s.pass := rfl
@[simp] theorem holdOutput_phase (v : DataWord) (n : BitVec 2) (s : State) : (holdOutput v n s).phase = s.phase := rfl
@[simp] theorem holdOutput_outCnt (v : DataWord) (n : BitVec 2) (s : State) : (holdOutput v n s).outCnt = n := rfl
@[simp] theorem holdOutput_dout (v : DataWord) (n : BitVec 2) (s : State) : (holdOutput v n s).dout = v := rfl
@[simp] theorem holdOutput_errIll (v : DataWord) (n : BitVec 2) (s : State) : (holdOutput v n s).errIll = s.errIll := rfl
@[simp] theorem holdOutput_errOvf (v : DataWord) (n : BitVec 2) (s : State) : (holdOutput v n s).errOvf = s.errOvf := rfl
@[simp] theorem holdOutput_errUnf (v : DataWord) (n : BitVec 2) (s : State) : (holdOutput v n s).errUnf = s.errUnf := rfl
@[simp] theorem holdOutput_count (v : DataWord) (n : BitVec 2) (s : State) : (holdOutput v n s).count = s.count := rfl
@[simp] theorem holdOutput_issued (v : DataWord) (n : BitVec 2) (s : State) : (holdOutput v n s).issued = s.issued := rfl
@[simp] theorem holdOutput_replies (v : DataWord) (n : BitVec 2) (s : State) : (holdOutput v n s).replies = s.replies := rfl

/-! Emptying the output (41_data_transform.md R119). -/

@[simp] theorem emptyOutput_key (s : State) : (emptyOutput s).key = s.key := rfl
@[simp] theorem emptyOutput_keyinit (s : State) : (emptyOutput s).keyinit = s.keyinit := rfl
@[simp] theorem emptyOutput_pass (s : State) : (emptyOutput s).pass = s.pass := rfl
@[simp] theorem emptyOutput_phase (s : State) : (emptyOutput s).phase = s.phase := rfl
@[simp] theorem emptyOutput_outCnt (s : State) : (emptyOutput s).outCnt = 0#2 := rfl
@[simp] theorem emptyOutput_dout (s : State) : (emptyOutput s).dout = 0#16 := rfl
@[simp] theorem emptyOutput_errIll (s : State) : (emptyOutput s).errIll = s.errIll := rfl
@[simp] theorem emptyOutput_errOvf (s : State) : (emptyOutput s).errOvf = s.errOvf := rfl
@[simp] theorem emptyOutput_errUnf (s : State) : (emptyOutput s).errUnf = s.errUnf := rfl
@[simp] theorem emptyOutput_count (s : State) : (emptyOutput s).count = s.count := rfl
@[simp] theorem emptyOutput_issued (s : State) : (emptyOutput s).issued = s.issued := rfl
@[simp] theorem emptyOutput_replies (s : State) : (emptyOutput s).replies = s.replies := rfl

/-! Clearing the errors (42_system.md R142). -/

@[simp] theorem clearErrors_key (s : State) : (clearErrors s).key = s.key := rfl
@[simp] theorem clearErrors_keyinit (s : State) : (clearErrors s).keyinit = s.keyinit := rfl
@[simp] theorem clearErrors_pass (s : State) : (clearErrors s).pass = s.pass := rfl
@[simp] theorem clearErrors_phase (s : State) : (clearErrors s).phase = s.phase := rfl
@[simp] theorem clearErrors_outCnt (s : State) : (clearErrors s).outCnt = s.outCnt := rfl
@[simp] theorem clearErrors_dout (s : State) : (clearErrors s).dout = s.dout := rfl
@[simp] theorem clearErrors_errIll (s : State) : (clearErrors s).errIll = false := rfl
@[simp] theorem clearErrors_errOvf (s : State) : (clearErrors s).errOvf = false := rfl
@[simp] theorem clearErrors_errUnf (s : State) : (clearErrors s).errUnf = false := rfl
@[simp] theorem clearErrors_count (s : State) : (clearErrors s).count = s.count := rfl
@[simp] theorem clearErrors_issued (s : State) : (clearErrors s).issued = s.issued := rfl
@[simp] theorem clearErrors_replies (s : State) : (clearErrors s).replies = s.replies := rfl

/-! Resetting the block (10_state.md R33). -/

@[simp] theorem resetBlock_key (s : State) : (resetBlock s).key = 0#16 := rfl
@[simp] theorem resetBlock_keyinit (s : State) : (resetBlock s).keyinit = 0#16 := rfl
@[simp] theorem resetBlock_pass (s : State) : (resetBlock s).pass = 0#24 := rfl
@[simp] theorem resetBlock_phase (s : State) : (resetBlock s).phase = .high := rfl
@[simp] theorem resetBlock_outCnt (s : State) : (resetBlock s).outCnt = 0#2 := rfl
@[simp] theorem resetBlock_dout (s : State) : (resetBlock s).dout = 0#16 := rfl
@[simp] theorem resetBlock_errIll (s : State) : (resetBlock s).errIll = false := rfl
@[simp] theorem resetBlock_errOvf (s : State) : (resetBlock s).errOvf = false := rfl
@[simp] theorem resetBlock_errUnf (s : State) : (resetBlock s).errUnf = false := rfl
@[simp] theorem resetBlock_count (s : State) : (resetBlock s).count = 0#32 := rfl
@[simp] theorem resetBlock_issued (s : State) : (resetBlock s).issued = s.issued := rfl
@[simp] theorem resetBlock_replies (s : State) : (resetBlock s).replies = s.replies := rfl

/-! Answering a read (00_scope.md R11). -/

@[simp] theorem reply_key (v : BusWord) (s : State) : (reply v s).key = s.key := rfl
@[simp] theorem reply_keyinit (v : BusWord) (s : State) : (reply v s).keyinit = s.keyinit := rfl
@[simp] theorem reply_pass (v : BusWord) (s : State) : (reply v s).pass = s.pass := rfl
@[simp] theorem reply_phase (v : BusWord) (s : State) : (reply v s).phase = s.phase := rfl
@[simp] theorem reply_outCnt (v : BusWord) (s : State) : (reply v s).outCnt = s.outCnt := rfl
@[simp] theorem reply_dout (v : BusWord) (s : State) : (reply v s).dout = s.dout := rfl
@[simp] theorem reply_errIll (v : BusWord) (s : State) : (reply v s).errIll = s.errIll := rfl
@[simp] theorem reply_errOvf (v : BusWord) (s : State) : (reply v s).errOvf = s.errOvf := rfl
@[simp] theorem reply_errUnf (v : BusWord) (s : State) : (reply v s).errUnf = s.errUnf := rfl
@[simp] theorem reply_count (v : BusWord) (s : State) : (reply v s).count = s.count := rfl
@[simp] theorem reply_issued (v : BusWord) (s : State) : (reply v s).issued = s.issued := rfl
@[simp] theorem reply_replies (v : BusWord) (s : State) : (reply v s).replies = s.replies ++ [v] := rfl

/-! Raising an error (60_exceptions.md R160 to R162): the one flag, and nothing else. -/

@[simp] theorem raiseError_key (c : ErrorCause) (s : State) : (raiseError c s).key = s.key := by
  cases c <;> rfl
@[simp] theorem raiseError_keyinit (c : ErrorCause) (s : State) : (raiseError c s).keyinit = s.keyinit := by
  cases c <;> rfl
@[simp] theorem raiseError_pass (c : ErrorCause) (s : State) : (raiseError c s).pass = s.pass := by
  cases c <;> rfl
@[simp] theorem raiseError_phase (c : ErrorCause) (s : State) : (raiseError c s).phase = s.phase := by
  cases c <;> rfl
@[simp] theorem raiseError_outCnt (c : ErrorCause) (s : State) : (raiseError c s).outCnt = s.outCnt := by
  cases c <;> rfl
@[simp] theorem raiseError_dout (c : ErrorCause) (s : State) : (raiseError c s).dout = s.dout := by
  cases c <;> rfl
@[simp] theorem raiseError_count (c : ErrorCause) (s : State) : (raiseError c s).count = s.count := by
  cases c <;> rfl
@[simp] theorem raiseError_issued (c : ErrorCause) (s : State) : (raiseError c s).issued = s.issued := by
  cases c <;> rfl
@[simp] theorem raiseError_replies (c : ErrorCause) (s : State) : (raiseError c s).replies = s.replies := by
  cases c <;> rfl
@[simp] theorem raiseError_illegal_errIll (s : State) : (raiseError .illegal s).errIll = true := rfl
@[simp] theorem raiseError_illegal_errOvf (s : State) : (raiseError .illegal s).errOvf = s.errOvf := rfl
@[simp] theorem raiseError_illegal_errUnf (s : State) : (raiseError .illegal s).errUnf = s.errUnf := rfl
@[simp] theorem raiseError_overrun_errIll (s : State) : (raiseError .overrun s).errIll = s.errIll := rfl
@[simp] theorem raiseError_overrun_errOvf (s : State) : (raiseError .overrun s).errOvf = true := rfl
@[simp] theorem raiseError_overrun_errUnf (s : State) : (raiseError .overrun s).errUnf = s.errUnf := rfl
@[simp] theorem raiseError_underrun_errIll (s : State) : (raiseError .underrun s).errIll = s.errIll := rfl
@[simp] theorem raiseError_underrun_errOvf (s : State) : (raiseError .underrun s).errOvf = s.errOvf := rfl
@[simp] theorem raiseError_underrun_errUnf (s : State) : (raiseError .underrun s).errUnf = true := rfl

end Sys2Proof.Machine
end

