-- ==== Sys2Proof/Laws/Ops.lean ====
section
/-! SUPPORT. For each shared operation, once, everything it can do. -/

namespace Sys2Proof.Machine

/-- Raising an error sets its own flag and leaves the two others (60_exceptions.md R160 to R162). -/
theorem errorFlag_raiseError (c d : ErrorCause) (s : State) :
    errorFlag d (raiseError c s) = (errorFlag d s || decide (c = d)) := by
  cases c <;> cases d <;> simp [errorFlag]

/-- Clearing the errors leaves no flag set (42_system.md R142). -/
theorem errorFlag_clearErrors (c : ErrorCause) (s : State) : errorFlag c (clearErrors s) = false := by
  cases c <;> rfl

theorem unlessOutputHeld_of_held {s : State} (a : State) (h : s.outCnt ≠ 0#2) :
    unlessOutputHeld s a = .next (raiseError .overrun s) := by
  simp [unlessOutputHeld, h]

theorem unlessOutputHeld_of_empty {s : State} (a : State) (h : s.outCnt = 0#2) :
    unlessOutputHeld s a = .next a := by
  simp [unlessOutputHeld, h]

/-- The guard of the data commands answers a next state in one of two ways (41_data_transform.md R116, R117). -/
theorem unlessOutputHeld_next {s a t : State} (h : unlessOutputHeld s a = .next t) :
    (s.outCnt ≠ 0#2 ∧ t = raiseError .overrun s) ∨ (s.outCnt = 0#2 ∧ t = a) := by
  by_cases hs : s.outCnt = 0#2
  · rw [unlessOutputHeld_of_empty a hs] at h
    exact .inr ⟨hs, by cases h; rfl⟩
  · rw [unlessOutputHeld_of_held a hs] at h
    exact .inl ⟨hs, by cases h; rfl⟩

/-! The engine step (41_data_transform.md R113), one lemma per branch. -/

theorem engineStep_of_pass (x : Byte) {s : State} (h : s.pass ≠ 0#24) :
    engineStep x s = (x, { s with count := s.count + 1#32, pass := s.pass - 1#24 }) := by
  simp [engineStep, h]

theorem engineStep_of_high (x : Byte) {s : State} (h : s.pass = 0#24) (hp : s.phase = .high) :
    engineStep x s = (x ^^^ highByte s.key, { s with count := s.count + 1#32, phase := .low }) := by
  simp [engineStep, h, hp]

theorem engineStep_of_low (x : Byte) {s : State} (h : s.pass = 0#24) (hp : s.phase = .low) :
    engineStep x s =
      (x ^^^ lowByte s.key, { s with count := s.count + 1#32, phase := .high, key := nextKey s.key }) := by
  simp [engineStep, h, hp]

/-! What the engine step never touches, and COUNT, which every step advances (41_data_transform.md R113). -/

@[simp] theorem engineStep_count (x : Byte) (s : State) : (engineStep x s).2.count = s.count + 1#32 := by
  unfold engineStep; split
  · rfl
  · split <;> rfl

@[simp] theorem engineStep_keyinit (x : Byte) (s : State) : (engineStep x s).2.keyinit = s.keyinit := by
  unfold engineStep; split
  · rfl
  · split <;> rfl

@[simp] theorem engineStep_outCnt (x : Byte) (s : State) : (engineStep x s).2.outCnt = s.outCnt := by
  unfold engineStep; split
  · rfl
  · split <;> rfl

@[simp] theorem engineStep_dout (x : Byte) (s : State) : (engineStep x s).2.dout = s.dout := by
  unfold engineStep; split
  · rfl
  · split <;> rfl

@[simp] theorem engineStep_errIll (x : Byte) (s : State) : (engineStep x s).2.errIll = s.errIll := by
  unfold engineStep; split
  · rfl
  · split <;> rfl

@[simp] theorem engineStep_errOvf (x : Byte) (s : State) : (engineStep x s).2.errOvf = s.errOvf := by
  unfold engineStep; split
  · rfl
  · split <;> rfl

@[simp] theorem engineStep_errUnf (x : Byte) (s : State) : (engineStep x s).2.errUnf = s.errUnf := by
  unfold engineStep; split
  · rfl
  · split <;> rfl

@[simp] theorem engineStep_issued (x : Byte) (s : State) : (engineStep x s).2.issued = s.issued := by
  unfold engineStep; split
  · rfl
  · split <;> rfl

@[simp] theorem engineStep_replies (x : Byte) (s : State) : (engineStep x s).2.replies = s.replies := by
  unfold engineStep; split
  · rfl
  · split <;> rfl

end Sys2Proof.Machine
end

