-- ==== Sys2Proof/Laws/Bus.lean ====
section
/-! SUPPORT. What one event and one step can do, once, and the register map's two directions. -/

namespace Sys2Proof.Machine

@[simp] theorem regOfIndex_regIndex (r : Reg) : regOfIndex (regIndex r) = r := by
  cases r <;> rfl

theorem regOfIndex_eq_cmd {i : RegIndex} : regOfIndex i = .cmd ↔ i = 0#3 := by
  revert i; decide

theorem regOfIndex_eq_dout {i : RegIndex} : regOfIndex i = .dout ↔ i = 5#3 := by
  revert i; decide

/-- A write to CMD of a word that decodes runs the command (30_encoding.md R74). -/
theorem writeCommand_of_ok {w : BusWord} {i : Instr} (h : decode w = .ok i) (s : State) :
    writeCommand w s = exec i s := by
  simp [writeCommand, h]

/-- A write to CMD of a word that does not decode raises ERR_ILL (60_exceptions.md R160). -/
theorem writeCommand_of_error {w : BusWord} {r : DecodeError} (h : decode w = .error r) (s : State) :
    writeCommand w s = .next (raiseError .illegal s) := by
  simp [writeCommand, h]

/-- The parts of an event that a proof has to tell apart: a decoded command, an illegal command word, a write to
another register, a read, a reset (20_memory.md R52 to R54; 70_reset_and_hazards.md R180). -/
theorem performEvent_cases {e : BusEvent} {s t : State} (h : performEvent e s = .next t) :
    (∃ w i, e = .write 0#3 w ∧ decode w = .ok i ∧ exec i s = .next t) ∨
    (∃ w r, e = .write 0#3 w ∧ decode w = .error r ∧ t = raiseError .illegal s) ∨
    (∃ i v, e = .write i v ∧ i ≠ 0#3 ∧ t = s) ∨
    (∃ i, e = .read i ∧ t = reply (readValue (regOfIndex i) s) (readEffect (regOfIndex i) s)) ∨
    ((e = .hardwareReset ∨ e = .powerUp) ∧ t = resetBlock s) := by
  cases e with
  | write i v =>
    by_cases hi : i = 0#3
    · subst hi
      change writeCommand v s = .next t at h
      cases hd : decode v with
      | ok ins =>
        rw [writeCommand_of_ok hd] at h
        exact .inl ⟨v, ins, rfl, hd, h⟩
      | error r =>
        rw [writeCommand_of_error hd] at h
        exact .inr (.inl ⟨v, r, rfl, hd, by cases h; rfl⟩)
    · have hr : regOfIndex i ≠ .cmd := fun hc => hi (regOfIndex_eq_cmd.mp hc)
      refine .inr (.inr (.inl ⟨i, v, rfl, hi, ?_⟩))
      simp only [performEvent, busWrite] at h
      split at h
      · exact absurd ‹_› hr
      all_goals cases h; rfl
  | read i => exact .inr (.inr (.inr (.inl ⟨i, rfl, by cases h; rfl⟩)))
  | hardwareReset => exact .inr (.inr (.inr (.inr ⟨.inl rfl, by cases h; rfl⟩)))
  | powerUp => exact .inr (.inr (.inr (.inr ⟨.inr rfl, by cases h; rfl⟩)))

/-- A step waits or performs the oldest event (20_memory.md R62; log entries 1 and 2). -/
theorem step_cases {s t : State} (h : step s = .next t) :
    (s.issued = [] ∧ t = s) ∨
    (∃ e rest, s.issued = e :: rest ∧ performEvent e { s with issued := rest } = .next t) := by
  unfold step at h
  split at h
  · exact .inl ⟨‹_›, by cases h; rfl⟩
  · exact .inr ⟨_, _, ‹_›, h⟩

/-- Reading a register that is not DOUT leaves the state (20_memory.md R53). -/
theorem readEffect_of_ne_dout {r : Reg} (h : r ≠ .dout) (s : State) : readEffect r s = s := by
  cases r <;> first | rfl | exact absurd rfl h

/-! The DOUT read, by its two cases (41_data_transform.md R119, R120). -/

theorem readValue_dout_of_held {s : State} (h : s.outCnt ≠ 0#2) : readValue .dout s = s.dout.setWidth 32 := by
  simp [readValue, h]

theorem readValue_dout_of_empty {s : State} (h : s.outCnt = 0#2) : readValue .dout s = 0#32 := by
  simp [readValue, h]

theorem readEffect_dout_of_held {s : State} (h : s.outCnt ≠ 0#2) : readEffect .dout s = emptyOutput s := by
  simp [readEffect, h]

theorem readEffect_dout_of_empty {s : State} (h : s.outCnt = 0#2) :
    readEffect .dout s = raiseError .underrun s := by
  simp [readEffect, h]

/-! The widths of the registers are the parameters of 00_scope.md R7. -/

theorem key_lt (s : State) : s.key.toNat < 2 ^ Config.keyWidth := s.key.isLt

theorem pass_lt (s : State) : s.pass.toNat < 2 ^ Config.passWidth := s.pass.isLt

theorem count_lt (s : State) : s.count.toNat < 2 ^ Config.countWidth := s.count.isLt

theorem statusWord_lt (s : State) : (statusWord s).toNat < 2 ^ Config.busWidth := (statusWord s).isLt

theorem regIndex_lt (r : Reg) : (regIndex r).toNat < Config.regCount := (regIndex r).isLt

end Sys2Proof.Machine
end

