-- ==== Sys2Proof/Laws/Encoding.lean ====
section
/-! SUPPORT. What each field of a command word is as a number, what each encoded word is as a number, and when a word
selects a row of the opcode map, so that facts about encodings come down to arithmetic. -/

namespace Sys2Proof.Laws

theorem toNat_append_eq {m n : Nat} (x : BitVec m) (y : BitVec n) :
    (x ++ y).toNat = x.toNat * 2 ^ n + y.toNat := by
  rw [BitVec.toNat_append, ← Nat.shiftLeft_add_eq_or_of_lt y.isLt, Nat.shiftLeft_eq]

/-! Fields of a word. -/

theorem opField_toNat (w : BusWord) : (opField w).toNat = w.toNat / 0x10000000 := by
  simp [opField, BitVec.extractLsb'_toNat, Nat.shiftRight_eq_div_pow]; omega

theorem rsvField_toNat (w : BusWord) : (rsvField w).toNat = w.toNat / 0x1000000 % 0x10 := by
  simp [rsvField, BitVec.extractLsb'_toNat, Nat.shiftRight_eq_div_pow]

theorem immField_toNat (w : BusWord) : (immField w).toNat = w.toNat % 0x1000000 := by
  simp [immField, BitVec.extractLsb'_toNat]

theorem immHigh8_toNat (w : BusWord) : (immHigh8 w).toNat = w.toNat / 0x10000 % 0x100 := by
  simp [immHigh8, BitVec.extractLsb'_toNat, Nat.shiftRight_eq_div_pow]

theorem immHigh16_toNat (w : BusWord) : (immHigh16 w).toNat = w.toNat / 0x100 % 0x10000 := by
  simp [immHigh16, BitVec.extractLsb'_toNat, Nat.shiftRight_eq_div_pow]

theorem immLow16_toNat (w : BusWord) : (immLow16 w).toNat = w.toNat % 0x10000 := by
  simp [immLow16, BitVec.extractLsb'_toNat]

theorem immLow8_toNat (w : BusWord) : (immLow8 w).toNat = w.toNat % 0x100 := by
  simp [immLow8, BitVec.extractLsb'_toNat]

/-! Encoded words. -/

theorem encode_nop_toNat : (encode .nop).toNat = 0 := rfl

theorem encode_setkey_toNat (k : Key) : (encode (.setkey k)).toNat = 0x10000000 + k.toNat := by
  simp only [encode, toNat_append_eq, BitVec.toNat_ofNat]; omega

theorem encode_keytag_toNat (t : DataWord) : (encode (.keytag t)).toNat = 0x20000000 + t.toNat := by
  simp only [encode, toNat_append_eq, BitVec.toNat_ofNat]; omega

theorem encode_setpass_toNat (p : PassCount) : (encode (.setpass p)).toNat = 0x30000000 + p.toNat := by
  simp only [encode, toNat_append_eq, BitVec.toNat_ofNat]; omega

theorem encode_xbyte_toNat (b : Byte) : (encode (.xbyte b)).toNat = 0x40000000 + b.toNat := by
  simp only [encode, toNat_append_eq, BitVec.toNat_ofNat]; omega

theorem encode_xword_toNat (w : DataWord) : (encode (.xword w)).toNat = 0x50000000 + w.toNat := by
  simp only [encode, toNat_append_eq, BitVec.toNat_ofNat]; omega

theorem encode_clrerr_toNat : (encode .clrerr).toNat = 0xE0000000 := rfl

theorem encode_sreset_toNat : (encode .sreset).toNat = 0xF0000000 := rfl

/-! The masks of the opcode map: clearing low bits is dividing and multiplying. -/

theorem and_mask_low16_toNat (w : BusWord) : (w &&& 0xFFFF0000#32).toNat = w.toNat / 0x10000 * 0x10000 := by
  have h : w &&& 0xFFFF0000#32 = (w >>> 16) <<< 16 := by
    ext i hi; interval_cases i <;> simp
  rw [h]; simp [Nat.shiftRight_eq_div_pow, Nat.shiftLeft_eq]; omega

theorem and_mask_low24_toNat (w : BusWord) :
    (w &&& 0xFF000000#32).toNat = w.toNat / 0x1000000 * 0x1000000 := by
  have h : w &&& 0xFF000000#32 = (w >>> 24) <<< 24 := by
    ext i hi; interval_cases i <;> simp
  rw [h]; simp [Nat.shiftRight_eq_div_pow, Nat.shiftLeft_eq]; omega

theorem and_mask_low8_toNat (w : BusWord) : (w &&& 0xFFFFFF00#32).toNat = w.toNat / 0x100 * 0x100 := by
  have h : w &&& 0xFFFFFF00#32 = (w >>> 8) <<< 8 := by
    ext i hi; interval_cases i <;> simp
  rw [h]; simp [Nat.shiftRight_eq_div_pow, Nat.shiftLeft_eq]; omega

theorem and_mask_none_toNat (w : BusWord) : (w &&& 0xFFFFFFFF#32).toNat = w.toNat := by
  have h : w &&& 0xFFFFFFFF#32 = w := by
    ext i hi; interval_cases i <;> simp
  rw [h]

/-! The `0` bits of a format are clear exactly when the operand is small. -/

theorem and_zeroMask_key (v : BitVec 24) : v &&& 0xFF0000#24 = 0#24 ↔ v.toNat < 0x10000 := by
  have e : v &&& 0xFF0000#24 = (v >>> 16) <<< 16 := by
    ext i hi; interval_cases i <;> simp
  rw [e, ← BitVec.toNat_inj]; simp [Nat.shiftRight_eq_div_pow, Nat.shiftLeft_eq]; omega

theorem and_zeroMask_byte (v : BitVec 24) : v &&& 0xFFFF00#24 = 0#24 ↔ v.toNat < 0x100 := by
  have e : v &&& 0xFFFF00#24 = (v >>> 8) <<< 8 := by
    ext i hi; interval_cases i <;> simp
  rw [e, ← BitVec.toNat_inj]; simp [Nat.shiftRight_eq_div_pow, Nat.shiftLeft_eq]; omega

theorem and_zeroMask_none (v : BitVec 24) : v &&& 0xFFFFFF#24 = 0#24 ↔ v.toNat = 0 := by
  have e : v &&& 0xFFFFFF#24 = v := by
    ext i hi; interval_cases i <;> simp
  rw [e, ← BitVec.toNat_inj]; rfl

/-- The three checks of a well-formed word, from its OP, RSV and IMM as numbers. -/
theorem wellFormedWord_of_fields {w : BusWord} {f : Format} (hf : formatOfOp (opField w) = some f)
    (hr : (rsvField w).toNat = 0) (hz : immField w &&& f.zeroMask = 0#24) : wellFormedWord w = true := by
  have hr' : rsvField w = 0#4 := BitVec.eq_of_toNat_eq hr
  simp only [opField, rsvField, immField] at hf hr' hz
  simp [wellFormedWord, opListed, rsvClear, zeroBitsClear, hf, hr', hz]

theorem selectsRow_of_toNat {w : BusWord} {row : OpcodeRow} (h : (w &&& row.maskBits).toNat = row.matchBits.toNat) :
    selectsRow w row = true := by
  simp [selectsRow, BitVec.eq_of_toNat_eq h]

end Sys2Proof.Laws
end

