-- ==== Sys2Proof/Laws/Flags.lean ====
section
/-! SUPPORT. STATUS as a number (10_state.md R24). -/

namespace Sys2Proof.Machine

/-- Each field of STATUS, at its weight (10_state.md R24). -/
theorem statusWord_toNat (s : State) :
    (statusWord s).toNat =
      (BitVec.ofBool s.errUnf).toNat * 64 + (BitVec.ofBool s.errOvf).toNat * 32 + (BitVec.ofBool s.errIll).toNat * 16 +
        s.outCnt.toNat * 2 + (phaseBit s.phase).toNat := by
  simp only [statusWord, Laws.toNat_append_eq, BitVec.toNat_ofNat]
  omega

end Sys2Proof.Machine
end

