-- ==== Sys2Proof/Laws/PerInstr.lean ====
section
/-! SUPPORT. Facts about every command as syntax, one lemma per constructor. -/

/-- The word of the command is a well-formed command word, and it selects the row of the opcode map that has the
command's mnemonic (30_encoding.md R73). -/
def Sys2Proof.Laws.EncodesInItsRow.Statement (i : Sys2Proof.Instr) : Prop :=
  Sys2Proof.wellFormedWord (Sys2Proof.encode i) = true ∧
    ∃ row ∈ Sys2Proof.opcodeMap, row.name = Sys2Proof.mnemonic i ∧ Sys2Proof.selectsRow (Sys2Proof.encode i) row = true

namespace Sys2Proof.Laws.EncodesInItsRow

theorem nop : Statement .nop := ⟨by decide, by decide⟩

theorem setkey (k : Key) : Statement (.setkey k) := by
  have e := encode_setkey_toNat k
  have hk := k.isLt
  have ho : opField (encode (.setkey k)) = 0x1#4 :=
    BitVec.eq_of_toNat_eq (by rw [opField_toNat, e]; simp; omega)
  refine ⟨wellFormedWord_of_fields (f := .key) (by rw [ho]; rfl) (by rw [rsvField_toNat, e]; omega)
      ((and_zeroMask_key _).mpr (by rw [immField_toNat, e]; omega)), ⟨"SETKEY", 0x10000000#32, 0xFFFF0000#32⟩, by decide, rfl,
    selectsRow_of_toNat (by rw [and_mask_low16_toNat, e]; simp; omega)⟩

theorem keytag (t : DataWord) : Statement (.keytag t) := by
  have e := encode_keytag_toNat t
  have ht := t.isLt
  have ho : opField (encode (.keytag t)) = 0x2#4 :=
    BitVec.eq_of_toNat_eq (by rw [opField_toNat, e]; simp; omega)
  refine ⟨wellFormedWord_of_fields (f := .key) (by rw [ho]; rfl) (by rw [rsvField_toNat, e]; omega)
      ((and_zeroMask_key _).mpr (by rw [immField_toNat, e]; omega)), ⟨"KEYTAG", 0x20000000#32, 0xFFFF0000#32⟩, by decide, rfl,
    selectsRow_of_toNat (by rw [and_mask_low16_toNat, e]; simp; omega)⟩

theorem setpass (p : PassCount) : Statement (.setpass p) := by
  have e := encode_setpass_toNat p
  have hp := p.isLt
  have ho : opField (encode (.setpass p)) = 0x3#4 :=
    BitVec.eq_of_toNat_eq (by rw [opField_toNat, e]; simp; omega)
  refine ⟨wellFormedWord_of_fields (f := .count) (by rw [ho]; rfl) (by rw [rsvField_toNat, e]; omega)
      (by simp [Format.zeroMask]), ⟨"SETPASS", 0x30000000#32, 0xFF000000#32⟩, by decide, rfl,
    selectsRow_of_toNat (by rw [and_mask_low24_toNat, e]; simp; omega)⟩

theorem xbyte (b : Byte) : Statement (.xbyte b) := by
  have e := encode_xbyte_toNat b
  have hb := b.isLt
  have ho : opField (encode (.xbyte b)) = 0x4#4 :=
    BitVec.eq_of_toNat_eq (by rw [opField_toNat, e]; simp; omega)
  refine ⟨wellFormedWord_of_fields (f := .byte) (by rw [ho]; rfl) (by rw [rsvField_toNat, e]; omega)
      ((and_zeroMask_byte _).mpr (by rw [immField_toNat, e]; omega)), ⟨"XBYTE", 0x40000000#32, 0xFFFFFF00#32⟩, by decide, rfl,
    selectsRow_of_toNat (by rw [and_mask_low8_toNat, e]; simp; omega)⟩

theorem xword (w : DataWord) : Statement (.xword w) := by
  have e := encode_xword_toNat w
  have hw := w.isLt
  have ho : opField (encode (.xword w)) = 0x5#4 :=
    BitVec.eq_of_toNat_eq (by rw [opField_toNat, e]; simp; omega)
  refine ⟨wellFormedWord_of_fields (f := .word) (by rw [ho]; rfl) (by rw [rsvField_toNat, e]; omega)
      ((and_zeroMask_key _).mpr (by rw [immField_toNat, e]; omega)), ⟨"XWORD", 0x50000000#32, 0xFFFF0000#32⟩, by decide, rfl,
    selectsRow_of_toNat (by rw [and_mask_low16_toNat, e]; simp; omega)⟩

theorem clrerr : Statement .clrerr := ⟨by decide, by decide⟩

theorem sreset : Statement .sreset := ⟨by decide, by decide⟩

end Sys2Proof.Laws.EncodesInItsRow
end

