-- ==== Sys2Proof/Tests/Slice0.lean ====
section
/-! SUPPORT. The model's own tests, each on one word, one step or one function value, with the expected result taken
from the spec (95_test_vectors.md and the worked examples of the rules), and the witnesses: for each statement with
hypotheses, and for each of its clauses, concrete values that meet them all. -/

namespace Sys2Proof.Tests

open Sys2Proof.Machine

/-- The next state of an outcome, if it is one. -/
def nextOf : Outcome → Option State
  | .next s => some s
  | .fault _ => none
  | .refused _ => none

/-- From reset: SETPASS p and SETKEY k, as the vectors of 95_test_vectors.md section 5 begin. -/
def started (p : PassCount) (k : Key) : State :=
  { State.reset with pass := p, key := k, keyinit := k }

/-- The same with a byte of output held in DOUT. -/
def holding (p : PassCount) (k : Key) (v : DataWord) : State :=
  { started p k with dout := v, outCnt := 1#2 }

/-! The checks of a well-formed word, each with a word that it refuses and that passes the two others where it can. -/

theorem test_wellFormed_accepts : wellFormedWord 0x10001234#32 = true := by decide

theorem test_opListed_refuses_reserved : opListed 0x60000000#32 = false ∧ opListed 0xD0000000#32 = false := by decide

theorem test_rsvClear_refuses :
    rsvClear 0x41000000#32 = false ∧ opListed 0x41000000#32 = true ∧ zeroBitsClear 0x41000000#32 = true := by decide

theorem test_zeroBitsClear_refuses :
    zeroBitsClear 0x10010000#32 = false ∧ opListed 0x10010000#32 = true ∧ rsvClear 0x10010000#32 = true := by decide

/-! Decoding: the words are written out bit by bit from the encodings of R90, R92, R94, R116, R117, R140, R142, R144. -/

theorem test_decode_nop : decode 0b00000000000000000000000000000000#32 = .ok .nop := by decide

theorem test_decode_setkey : decode 0b00010000000000000001001000110100#32 = .ok (.setkey 0x1234#16) := by decide

theorem test_decode_keytag : decode 0b00100000000000001111111111111111#32 = .ok (.keytag 0xFFFF#16) := by decide

theorem test_decode_setpass : decode 0b00110000100000000000000000000100#32 = .ok (.setpass 0x800004#24) := by decide

theorem test_decode_xbyte : decode 0b01000000000000000000000010000001#32 = .ok (.xbyte 0x81#8) := by decide

theorem test_decode_xword : decode 0b01010000000000000100000101000010#32 = .ok (.xword 0x4142#16) := by decide

theorem test_decode_clrerr : decode 0b11100000000000000000000000000000#32 = .ok .clrerr := by decide

theorem test_decode_sreset : decode 0b11110000000000000000000000000000#32 = .ok .sreset := by decide

/-- V-S3: RSV is checked before the `0` bits. -/
theorem test_decode_rejects_rsv : decode 0x41000100#32 = .error .rsvNotZero := by decide

/-- V-S4. -/
theorem test_decode_rejects_opcode :
    decode 0x60000000#32 = .error .reservedOpcode ∧ decode 0xD0000000#32 = .error .reservedOpcode := by decide

/-- V-D11, V-D12, V-S7. -/
theorem test_decode_rejects_zeroBits :
    decode 0x40000155#32 = .error .zeroBitsNotZero ∧ decode 0x50010000#32 = .error .zeroBitsNotZero ∧
      decode 0xF0000010#32 = .error .zeroBitsNotZero := by decide

theorem test_decodeTableWord : decodeTableWord 32 0x20000000 = some (.keytag 0#16) := by decide

/-! The commands, from 95_test_vectors.md sections 4 and 5 and the worked examples of the rules. -/

/-- V-S1. -/
theorem test_nop : nextOf (exec .nop (started 3#24 0xA55A#16)) = some (started 3#24 0xA55A#16) := by decide

/-- V-K10: SETKEY clears PHASE and COUNT and keeps the pending output. -/
theorem test_setkey_keeps_output :
    (nextOf (exec (.setkey 0x0001#16) { holding 0#24 0x1234#16 0x0053#16 with phase := .low, count := 1#32 })).map
      (fun t => (t.key, t.keyinit, t.phase, t.count, t.outCnt, t.dout)) =
      some (0x0001#16, 0x0001#16, .high, 0#32, 1#2, 0x0053#16) := by decide

/-- V-K3, V-K6. -/
theorem test_keytag :
    (nextOf (exec (.keytag 0x1234#16) State.reset)).map (·.keyinit) = some 0x587C#16 ∧
      (nextOf (exec (.keytag 0xFFFF#16) State.reset)).map (·.key) = some 0xB5B7#16 := by decide

/-- V-K8. -/
theorem test_setpass_max :
    nextOf (exec (.setpass 0xFFFFFF#24) State.reset) = some { State.reset with pass := 16777215#24 } := by decide

/-- V-D1, V-D2: the high byte, then the low byte, which advances the key. -/
theorem test_xbyte_high_low :
    (nextOf (exec (.xbyte 0x0F#8) (started 0#24 0xA55A#16))).map (fun t => (t.dout, statusWord t)) =
      some (0x00AA#16, 0x00000003#32) ∧
    (nextOf (exec (.xbyte 0xF0#8) { started 0#24 0xA55A#16 with phase := .low })).map
      (fun t => (t.dout, t.key, statusWord t)) = some (0x00AA#16, 0xFB51#16, 0x00000002#32) := by decide

/-- V-D9: the overrun changes the flag alone. -/
theorem test_xbyte_overrun :
    nextOf (exec (.xbyte 0x02#8) (holding 0#24 0xA55A#16 0x00A4#16)) =
      some { holding 0#24 0xA55A#16 0x00A4#16 with errOvf := true } := by decide

/-- V-D4, V-D5. -/
theorem test_xword :
    (nextOf (exec (.xword 0x0FF0#16) (started 0#24 0xA55A#16))).map (fun t => (t.dout, t.key, statusWord t)) =
      some (0xAAAA#16, 0xFB51#16, 0x00000004#32) ∧
    (nextOf (exec (.xword 0x1122#16) (started 1#24 0xA55A#16))).map (fun t => (t.dout, t.pass, statusWord t)) =
      some (0x1187#16, 0#24, 0x00000005#32) := by decide

/-- V-D6: a word that completes one position and starts the next, under the new key. -/
theorem test_xword_across_positions :
    (nextOf (exec (.xword 0x3344#16) { started 0#24 0xA55A#16 with phase := .low, count := 1#32 })).map
      (fun t => (t.dout, t.key, t.count, t.phase)) = some (0x69BF#16, 0xFB51#16, 3#32, .low) := by decide

/-- R143's worked example: STATUS 0x00000032 becomes 0x00000002. -/
theorem test_clrerr :
    statusWord { holding 0#24 0#16 0#16 with errIll := true, errOvf := true } = 0x00000032#32 ∧
    (nextOf (exec .clrerr { holding 0#24 0#16 0#16 with errIll := true, errOvf := true })).map statusWord =
      some 0x00000002#32 := by decide

/-- V-S8. -/
theorem test_sreset :
    nextOf (exec .sreset { holding 3#24 0x1234#16 0x0041#16 with errUnf := true, count := 1#32 }) =
      some State.reset := by decide

/-! Bus accesses and steps. -/

/-- V-S2, and V-S5: the CLRERR word with IMM not 0 does not clear. -/
theorem test_illegal_words :
    (nextOf (performEvent (.write 0#3 0x00000001#32) State.reset)).map statusWord = some 0x00000010#32 ∧
    (nextOf (performEvent (.write 0#3 0xE0000001#32) { State.reset with errIll := true })).map statusWord =
      some 0x00000010#32 := by decide

/-- V-D13, V-D14. -/
theorem test_read_dout :
    nextOf (performEvent (busReadAt 0x14#32) { started 0#24 0xFB51#16 with dout := 0xAAAA#16, outCnt := 2#2 }) =
      some { started 0#24 0xFB51#16 with replies := [0x0000AAAA#32] } ∧
    nextOf (performEvent (busReadAt 0x14#32) State.reset) =
      some { State.reset with errUnf := true, replies := [0x00000000#32] } := by decide

/-- V-S9, V-S10, V-S11. -/
theorem test_register_map :
    (nextOf (performEvent (busReadAt 0x1C#32) State.reset)).map (·.replies) = some [0x4A480001#32] ∧
    nextOf (performEvent (busWriteAt 0x04#32 0xFFFFFFFF#32) State.reset) = some State.reset ∧
    (nextOf (performEvent (busReadAt 0x00#32) (started 1#24 2#16))).map (·.replies) = some [0#32] := by decide

/-- V-K1, as one step of the machine from a word placed where the next command comes from. -/
theorem test_step_withFetchWord :
    (nextOf (step (State.reset.withFetchWord 32 0x10001234))).map (fun t => (t.key, t.keyinit, t.issued)) =
      some (0x1234#16, 0x1234#16, []) := by decide

/-! The cipher, from 95_test_vectors.md sections 2 and 3. -/

theorem test_nextKey : nextKey 0x1234#16 = 0x35CB#16 ∧ nextKey 0xFFFF#16 = 0x0046#16 := by decide

/-- V-A4, with a lone byte. -/
theorem test_apply_lone_byte :
    cipherApply [0x41#8, 0x42#8, 0x43#8, 0x44#8, 0x45#8] 0x1234#16 0 = [0x53#8, 0x76#8, 0x76#8, 0x8F#8, 0xD7#8] := by
  decide

/-- V-A9, with an odd prefix. -/
theorem test_apply_odd_pass :
    cipherApply [0x01#8, 0x02#8, 0x03#8, 0x04#8, 0x05#8] 0xFFFF#16 1 = [0x01#8, 0xFD#8, 0xFC#8, 0x04#8, 0x43#8] := by
  decide

/-- V-A8, a prefix longer than the message. -/
theorem test_apply_short : cipherApply [0x01#8, 0x02#8, 0x03#8] 0x5555#16 4 = [0x01#8, 0x02#8, 0x03#8] := by decide

/-- The lines of R79 and of program P1, as bus accesses. -/
theorem test_assemble :
    assemblePseudos [.beginKey 0x1234#16 0#24, .xw 0x4142#16] =
      [.write 0#3 0x30000000#32, .write 0#3 0x10001234#32, .write 0#3 0x50004142#32, .read 5#3] := by decide

/-- The operand texts of R79. -/
theorem test_hex_digits :
    hexDigits 6 4 = ['0', '0', '0', '0', '0', '4'] ∧ hexDigits 4 0xA55A = ['A', '5', '5', 'A'] := by decide

/-! Witnesses. -/

theorem witness_DecodedWordIsTheEncoding : decode 0x3000FFFF#32 = .ok (.setpass 0x00FFFF#24) := by decide

theorem witness_IllegalWordOnlySetsErrIll :
    (∀ row ∈ opcodeMap, selectsRow 0x70000000#32 row = false) ∧ zeroBitsClear 0x00000001#32 = false := by decide

theorem witness_ReservedOpcodeOnlySetsErrIll :
    (0x6 ≤ ((0x60000000#32).extractLsb' 28 4).toNat ∧ ((0x60000000#32).extractLsb' 28 4).toNat ≤ 0xD) ∧
    (0x6 ≤ ((0xDFFFFFFF#32).extractLsb' 28 4).toNat ∧ ((0xDFFFFFFF#32).extractLsb' 28 4).toNat ≤ 0xD) := by decide

theorem witness_ReservedBitsOnlySetErrIll :
    (formatOfOp ((0x31000000#32).extractLsb' 28 4) = some .count ∧ (0x31000000#32).extractLsb' 24 4 ≠ 0#4) ∧
    (formatOfOp ((0x40000100#32).extractLsb' 28 4) = some .byte ∧
      (0x40000100#32).extractLsb' 0 24 &&& Format.zeroMask .byte ≠ 0#24) := by decide

theorem witness_NopChangesNothing :
    0x00000000#32 &&& 0xFFFFFFFF#32 = 0x00000000#32 ∧ (0x00000001#32).extractLsb' 28 4 = 0x0#4 ∧
      0x00000001#32 ≠ 0#32 := by decide

theorem witness_ClrerrClearsTheErrorFlags :
    0xE0000000#32 &&& 0xFFFFFFFF#32 = 0xE0000000#32 ∧ (0xE0000001#32).extractLsb' 28 4 = 0xE#4 ∧
      0xE0000001#32 ≠ 0xE0000000#32 := by decide

theorem witness_SresetRestoresResetValues :
    0xF0000000#32 &&& 0xFFFFFFFF#32 = 0xF0000000#32 ∧ (0xFFFFFFFF#32).extractLsb' 28 4 = 0xF#4 ∧
      0xFFFFFFFF#32 ≠ 0xF0000000#32 := by decide

theorem witness_SetkeyLoadsTheKey : 0x1000FFFF#32 &&& 0xFFFF0000#32 = 0x10000000#32 := by decide

theorem witness_KeytagLoadsTheTagKey : 0x2000FFFF#32 &&& 0xFFFF0000#32 = 0x20000000#32 := by decide

theorem witness_SetpassLoadsThePassthroughCount : 0x30FFFFFF#32 &&& 0xFF000000#32 = 0x30000000#32 := by decide

theorem witness_TagKeyIsTheXorOfTheTagHalves : isJhTag (tagHeader 0x4A#8 0x48#8 0x12#8 0x34#8) = true := by decide

/-- One state for each clause: the overrun, the last prefix byte, a high byte, a low byte. -/
theorem witness_XbyteTransformsOneByte :
    0x400000FF#32 &&& 0xFFFFFF00#32 = 0x40000000#32 ∧
    (holding 0#24 0#16 0#16).outCnt ≠ 0#2 ∧
    ((started 1#24 0#16).outCnt = 0#2 ∧ (started 1#24 0#16).pass ≠ 0#24) ∧
    ((started 0#24 0#16).outCnt = 0#2 ∧ (started 0#24 0#16).pass = 0#24 ∧ (started 0#24 0#16).phase = .high) ∧
    (∃ s : State, s = { started 0#24 0#16 with phase := .low } ∧ s.outCnt = 0#2 ∧ s.pass = 0#24 ∧ s.phase = .low) :=
  ⟨by decide, by decide, by decide, by decide, _, rfl, by decide⟩

/-- One state for each clause, with PASS at 2 and 1, where the clauses meet. -/
theorem witness_XwordTransformsTwoBytes :
    0x5000FFFF#32 &&& 0xFFFF0000#32 = 0x50000000#32 ∧
    (holding 0#24 0#16 0#16).outCnt ≠ 0#2 ∧
    ((started 2#24 0#16).outCnt = 0#2 ∧ 2 ≤ (started 2#24 0#16).pass.toNat) ∧
    ((started 1#24 0#16).outCnt = 0#2 ∧ (started 1#24 0#16).pass = 1#24 ∧ (started 1#24 0#16).phase = .high) ∧
    (∃ s : State, s = { started 1#24 0#16 with phase := .low } ∧ s.outCnt = 0#2 ∧ s.pass = 1#24 ∧ s.phase = .low) ∧
    ((started 0#24 0#16).outCnt = 0#2 ∧ (started 0#24 0#16).pass = 0#24 ∧ (started 0#24 0#16).phase = .high) ∧
    (∃ s : State, s = { started 0#24 0#16 with phase := .low } ∧ s.outCnt = 0#2 ∧ s.pass = 0#24 ∧ s.phase = .low) :=
  ⟨by decide, by decide, by decide, by decide, ⟨_, rfl, by decide⟩, by decide, ⟨_, rfl, by decide⟩⟩

theorem witness_XwordIsTwoXbytes : (started 1#24 0xA55A#16).outCnt = 0#2 := by decide

theorem witness_DataCommandWhileOutputIsHeldOverruns : (holding 0#24 0xA55A#16 0x00A4#16).outCnt ≠ 0#2 := by decide

theorem witness_DoutReadReturnsAndEmptiesTheOutput :
    (holding 0#24 0#16 0x00A4#16).outCnt ≠ 0#2 ∧ State.reset.outCnt = 0#2 ∧
    (nextOf (exec (.xbyte 0x5A#8) State.reset)).isSome = true ∧
    (nextOf (exec (.xword 0x5A5A#16) State.reset)).isSome = true := by decide

theorem witness_EmptyDoutReadUnderruns : State.reset.outCnt = 0#2 := by decide

/-- STATUS with reads of other registers between, and KEY with a DOUT read between. -/
theorem witness_RegisterReadsReturnTheirValuesAndChangeNothing :
    (4#3 ≠ 5#3 ∧ (4#3 = 4#3 → ∀ j ∈ [6#3, 0#3], j ≠ 5#3)) ∧
    (1#3 ≠ 5#3 ∧ (1#3 = 4#3 → ∀ j ∈ [5#3], j ≠ 5#3)) := by decide

theorem witness_WritesOutsideCmdAreIgnored : 1#3 ≠ 0#3 ∧ 7#3 ≠ 0#3 := by decide

theorem witness_RegistersStandAtTheirOffsets :
    (0x00000000#32).toNat = regOffset .cmd ∧ (0x0000001C#32).toNat = regOffset .id := by decide

/-- One access for each cause. -/
theorem witness_ErrorFlagIsSetOnlyByItsCause :
    (nextOf (performEvent (.write 0#3 0x60000000#32) State.reset)).map (errorFlag .illegal) = some true ∧
    (nextOf (performEvent (.write 0#3 0x40000000#32) (holding 0#24 0#16 0#16))).map (errorFlag .overrun) = some true ∧
    (nextOf (performEvent (.read 5#3) State.reset)).map (errorFlag .underrun) = some true ∧
    errorFlag .illegal State.reset = false ∧ errorFlag .overrun (holding 0#24 0#16 0#16) = false ∧
    errorFlag .underrun State.reset = false := by decide

theorem witness_ErrorFlagIsClearedOnlyByClrerrOrReset :
    errorFlag .overrun { State.reset with errOvf := true } = true ∧
    (nextOf (performEvent (.write 0#3 0xE0000000#32) { State.reset with errOvf := true })).map (errorFlag .overrun) =
      some false ∧
    (nextOf (performEvent .powerUp { State.reset with errOvf := true })).map (errorFlag .overrun) = some false := by
  decide

/-- Each register changed by one of its writers: a key load for KEYINIT, KEY, PHASE and COUNT; SETPASS for PASS; a
DOUT read for DOUT and OUT_CNT. -/
theorem witness_RegistersChangeOnlyByTheirWriters :
    (nextOf (performEvent (.write 0#3 0x10001234#32) { State.reset with phase := .low, count := 1#32 })).map
      (fun t => (t.keyinit, t.key, t.phase, t.count)) = some (0x1234#16, 0x1234#16, .high, 0#32) ∧
    (nextOf (performEvent (.write 0#3 0x30000004#32) State.reset)).map (·.pass) = some 4#24 ∧
    (nextOf (performEvent (.read 5#3) (holding 0#24 0#16 0x0041#16))).map (fun t => (t.dout, t.outCnt)) =
      some (0#16, 0#2) := by decide

theorem witness_OtherCommandsLeaveThePendingOutput :
    mnemonic (.setkey 0#16) ∉ ["XBYTE", "XWORD", "SRESET"] ∧ mnemonic .clrerr ∉ ["XBYTE", "XWORD", "SRESET"] := by
  decide

theorem witness_ReadAfterWriteSeesTheWrite :
    wellFormedWord 0x70000000#32 = false ∧ State.reset.outCnt = 0#2 ∧ (holding 0#24 0#16 0x00A4#16).outCnt ≠ 0#2 := by
  decide

/-- A state for each of the three ways to be reset. -/
theorem witness_EveryRegisterHasItsResetValue :
    nextOf (performEvent .hardwareReset (holding 1#24 2#16 3#16)) = some State.reset ∧
    nextOf (exec .sreset (holding 1#24 2#16 3#16)) = some State.reset := by decide

theorem witness_StepKeepsTheOutputWellFormed :
    OutputWellFormed { State.reset with issued := [.write 0#3 0x50004142#32] } ∧
    (nextOf (step { State.reset with issued := [.write 0#3 0x50004142#32] })).isSome = true :=
  ⟨⟨by decide, fun _ => rfl, fun h => absurd h (by decide)⟩, by decide⟩

theorem witness_StepPerformsTheOldestEvent :
    ({ State.reset with issued := [.read 7#3] } : State).issued = .read 7#3 :: [] ∧ State.reset.issued = [] := by decide

theorem witness_StepRunsTheDecodedCommand :
    ({ State.reset with issued := [.write 0#3 0xE0000000#32, .read 4#3] } : State).issued =
      .write 0#3 0xE0000000#32 :: [.read 4#3] ∧ decode 0xE0000000#32 = .ok .clrerr := by decide

theorem witness_EngineComputesApply : (started 4#24 0x0003#16).phase = .high := by decide

/-- The two clauses meet between 4 and 5 bytes. -/
theorem witness_EngineStateAfterBytes :
    (started 4#24 0x0003#16).phase = .high ∧
    [0x4A#8, 0x48#8, 0x12#8, 0x34#8].length ≤ (started 4#24 0x0003#16).pass.toNat ∧
    (started 4#24 0x0003#16).pass.toNat < [0x4A#8, 0x48#8, 0x12#8, 0x34#8, 0x48#8].length := by decide

theorem witness_ApplyXorsEachByteWithTheKeystream : (3 : Nat) < 4 := by decide

theorem witness_EngineStateDoesNotDependOnTheData :
    [0x00#8, 0x01#8].length = [0xFF#8, 0xFE#8].length := by decide

theorem witness_ShortMessagePassesVerbatim :
    [0x41#8, 0x42#8].length ≤ 2 ∧ [0x41#8, 0x42#8].length ≤ (started 2#24 0#16).pass.toNat := by decide

/-- A message started by BEGIN, and one started by BEGINTAG with R93's worked example. -/
theorem witness_SentMessageCollectsApply :
    (Pseudo.beginKey 0x1234#16 4#24 = .beginKey 0x1234#16 4#24 ∨
      ∃ x : DataWord, Pseudo.beginKey 0x1234#16 4#24 = .beginTag x 4#24 ∧ 0x1234#16 = 0x4A48#16 ^^^ x) ∧
    (Pseudo.beginTag 0x1234#16 4#24 = .beginKey 0x587C#16 4#24 ∨
      ∃ x : DataWord, Pseudo.beginTag 0x1234#16 4#24 = .beginTag x 4#24 ∧ 0x587C#16 = 0x4A48#16 ^^^ x) ∧
    State.reset.outCnt = 0#2 :=
  ⟨.inl rfl, .inr ⟨0x1234#16, rfl, by decide⟩, by decide⟩

end Sys2Proof.Tests
end

section
/-! Reset (10_state.md R33; 42_system.md R144; 70_reset_and_hazards.md R180, R181): what each reset does to the whole
state, and the value of every register afterwards. -/

namespace Sys2Proof.Machine

@[simp] theorem exec_sreset (s : State) : exec .sreset s = .next (resetBlock s) := rfl

@[simp] theorem performEvent_hardwareReset (s : State) : performEvent .hardwareReset s = .next (resetBlock s) := rfl

/-- The reset state is itself a state after a reset, so a fact about `resetBlock` covers it too. -/
theorem resetBlock_reset : resetBlock State.reset = State.reset := rfl

/-- ID is constant (10_state.md R29). -/
@[simp] theorem readValue_id (s : State) : readValue .id s = 0x4A480001#32 := rfl

/-- The three ways of R33 to be reset all come down to `resetBlock`. -/
theorem exists_eq_resetBlock {s t : State}
    (h : t = State.reset ∨ performEvent .hardwareReset s = .next t ∨ exec .sreset s = .next t) :
    ∃ u, t = resetBlock u := by
  obtain rfl | hhw | hsreset := h
  · exact ⟨State.reset, resetBlock_reset.symm⟩
  · rw [performEvent_hardwareReset] at hhw
    exact ⟨s, by cases hhw; rfl⟩
  · rw [exec_sreset] at hsreset
    exact ⟨s, by cases hsreset; rfl⟩

/-- Settles O38: each of the three states is `resetBlock u` for some `u`, whose registers the lemmas of
Laws/State.lean give. -/
theorem everyRegisterHasItsResetValue : Obligations.EveryRegisterHasItsResetValue := by
  unfold Obligations.EveryRegisterHasItsResetValue
  intro s t h
  obtain ⟨u, rfl⟩ := exists_eq_resetBlock h
  simp

end Sys2Proof.Machine
end

section
/-! The accesses of R54 (20_memory.md): writes to the registers that take none, and reads without a side effect. -/

namespace Sys2Proof.Machine

/-- Only CMD takes a write (20_memory.md R52, R54). -/
theorem busWrite_of_ne_cmd {i : RegIndex} (h : regOfIndex i ≠ .cmd) (v : BusWord) (s : State) :
    busWrite i v s = .next s := by
  unfold busWrite
  split
  case h_1 hcmd => exact absurd hcmd h
  all_goals rfl

theorem performEvent_write_of_ne_zero {i : RegIndex} (h : i ≠ 0#3) (v : BusWord) (s : State) :
    performEvent (.write i v) s = .next s :=
  busWrite_of_ne_cmd (mt regOfIndex_eq_cmd.mp h) v s

/-- A read of any register but DOUT only answers (20_memory.md R53, R59). -/
theorem performEvent_read_of_ne_dout {i : RegIndex} (h : regOfIndex i ≠ .dout) (s : State) :
    performEvent (.read i) s = .next (reply (readValue (regOfIndex i) s) s) := by
  have hread : performEvent (.read i) s =
      .next (reply (readValue (regOfIndex i) s) (readEffect (regOfIndex i) s)) := rfl
  rw [hread, readEffect_of_ne_dout h]

/-- CMD is write-only: it answers 0 (20_memory.md R52). -/
@[simp] theorem readValue_cmd (s : State) : readValue .cmd s = 0#32 := rfl

theorem performEvent_read_cmd (s : State) : performEvent (.read 0#3) s = .next (reply 0#32 s) := by
  have hcmd : regOfIndex 0#3 = .cmd := regOfIndex_eq_cmd.mpr rfl
  rw [performEvent_read_of_ne_dout (by simp [hcmd]), hcmd, readValue_cmd]

/-- Settles O28: an index other than 0 does not select CMD, so the write is ignored; index 0 selects CMD, whose read
only answers. -/
theorem writesOutsideCmdAreIgnored : Obligations.WritesOutsideCmdAreIgnored := by
  unfold Obligations.WritesOutsideCmdAreIgnored
  exact ⟨fun _ v s h => performEvent_write_of_ne_zero h v s, performEvent_read_cmd⟩

end Sys2Proof.Machine
end

section
/-! Illegal command words (30_encoding.md R74 to R76): for each way a word fails the decoder, the name it is rejected
by, and the one effect that every rejected word has. -/

namespace Sys2Proof.Machine

open Sys2Proof.Laws

/-! The bits that the decoder tests are the `0` bits of the format (30_encoding.md R71). -/

theorem immHigh8_eq_zero_iff (w : BusWord) : immHigh8 w = 0#8 ↔ immField w &&& 0xFF0000#24 = 0#24 := by
  rw [and_zeroMask_key, immField_toNat, ← BitVec.toNat_inj, immHigh8_toNat, BitVec.toNat_ofNat]
  omega

theorem immHigh16_eq_zero_iff (w : BusWord) : immHigh16 w = 0#16 ↔ immField w &&& 0xFFFF00#24 = 0#24 := by
  rw [and_zeroMask_byte, immField_toNat, ← BitVec.toNat_inj, immHigh16_toNat, BitVec.toNat_ofNat]
  omega

theorem immField_eq_zero_iff (w : BusWord) : immField w = 0#24 ↔ immField w &&& 0xFFFFFF#24 = 0#24 := by
  rw [and_zeroMask_none, ← BitVec.toNat_inj, BitVec.toNat_ofNat]

/-! The three rejections, in the order in which R74 tests for them. -/

theorem decode_of_rsv_ne_zero {w : BusWord} (hrsv : rsvField w ≠ 0#4) : decode w = .error .rsvNotZero :=
  if_pos hrsv

theorem decode_of_reserved_op {w : BusWord} (hrsv : rsvField w = 0#4) (hlow : 0x6 ≤ (opField w).toNat)
    (hhigh : (opField w).toNat ≤ 0xD) : decode w = .error .reservedOpcode := by
  rw [decode, if_neg (not_not_intro hrsv)]
  split
  case h_9 => rfl
  all_goals omega

theorem decode_of_zeroBits_ne_zero {w : BusWord} {f : Format} (hrsv : rsvField w = 0#4)
    (hf : formatOfOp (opField w) = some f) (hbits : immField w &&& f.zeroMask ≠ 0#24) :
    decode w = .error .zeroBitsNotZero := by
  unfold formatOfOp at hf
  split at hf <;> cases hf
  case h_1 hop | h_7 hop | h_8 hop =>
    have himm : immField w ≠ 0#24 := mt (immField_eq_zero_iff w).mp hbits
    simp [decode, hrsv, hop, himm]
  case h_2 hop | h_3 hop | h_6 hop =>
    have himm : immHigh8 w ≠ 0#8 := mt (immHigh8_eq_zero_iff w).mp hbits
    simp [decode, hrsv, hop, himm]
  case h_4 => exact absurd BitVec.and_zero hbits
  case h_5 hop =>
    have himm : immHigh16 w ≠ 0#16 := mt (immHigh16_eq_zero_iff w).mp hbits
    simp [decode, hrsv, hop, himm]

/-- Index 0 is CMD, so a write to it executes the word (20_memory.md R52; 30_encoding.md R70). -/
theorem performEvent_write_cmd (w : BusWord) (s : State) : performEvent (.write 0#3 w) s = writeCommand w s := rfl

/-- Whatever a word is rejected for, writing it to CMD has the one effect of R160 (60_exceptions.md). -/
theorem performEvent_write_of_error {w : BusWord} {r : DecodeError} (h : decode w = .error r) (s : State) :
    performEvent (.write 0#3 w) s = .next { s with errIll := true } :=
  (performEvent_write_cmd w s).trans (writeCommand_of_error h s)

/-- Settles O8: the decoder rejects the word, for its RSV field if that is not 0 and for its OP otherwise. -/
theorem reservedOpcodeOnlySetsErrIll : Obligations.ReservedOpcodeOnlySetsErrIll := by
  unfold Obligations.ReservedOpcodeOnlySetsErrIll
  intro w s hlow hhigh
  by_cases hrsv : rsvField w = 0#4
  · exact performEvent_write_of_error (decode_of_reserved_op hrsv hlow hhigh) s
  · exact performEvent_write_of_error (decode_of_rsv_ne_zero hrsv) s

/-- Settles O9: the decoder rejects the word, for its RSV field if that is not 0 and for the `0` bits of its format
otherwise. -/
theorem reservedBitsOnlySetErrIll : Obligations.ReservedBitsOnlySetErrIll := by
  unfold Obligations.ReservedBitsOnlySetErrIll
  intro w f s hf hreserved
  by_cases hrsv : rsvField w = 0#4
  · have hbits : immField w &&& f.zeroMask ≠ 0#24 := hreserved.resolve_left (not_not_intro hrsv)
    exact performEvent_write_of_error (decode_of_zeroBits_ne_zero hrsv hf hbits) s
  · exact performEvent_write_of_error (decode_of_rsv_ne_zero hrsv) s

end Sys2Proof.Machine
end

section
/-! The pseudo-instructions (30_encoding.md R80): one equation for each. -/

namespace Sys2Proof.Machine

@[simp] theorem expandPseudo_beginKey (k : Key) (p : PassCount) :
    expandPseudo (.beginKey k p) = [.command (.setpass p), .command (.setkey k)] := rfl

@[simp] theorem expandPseudo_beginTag (t : DataWord) (p : PassCount) :
    expandPseudo (.beginTag t p) = [.command (.setpass p), .command (.keytag t)] := rfl

@[simp] theorem expandPseudo_xb (b : Byte) : expandPseudo (.xb b) = [.command (.xbyte b), .rd .dout] := rfl

@[simp] theorem expandPseudo_xw (w : DataWord) : expandPseudo (.xw w) = [.command (.xword w), .rd .dout] := rfl

/-- Settles O46: the equations of the four pseudo-instructions. -/
theorem pseudoInstructionsExpandExactly : Obligations.PseudoInstructionsExpandExactly := by
  unfold Obligations.PseudoInstructionsExpandExactly
  exact ⟨expandPseudo_beginKey, expandPseudo_beginTag, expandPseudo_xb, expandPseudo_xw⟩

end Sys2Proof.Machine
end

section
/-! The decoder on the words that match the SETKEY, KEYTAG and SETPASS rows of the opcode map (30_encoding.md R73): the
bits under a row's mask fix every field that the decoder tests. -/

namespace Sys2Proof.Machine

open Sys2Proof.Laws

/-- The mask of formats K and W covers OP, RSV and the `0` bits 23:16 (30_encoding.md R71, R73). -/
theorem fields_of_and_mask_low16 {w : BusWord} {op : BitVec 4} (h : w &&& 0xFFFF0000#32 = op ++ 0#28) :
    rsvField w = 0#4 ∧ opField w = op ∧ immHigh8 w = 0#8 := by
  have hbits : w.toNat / 0x10000 * 0x10000 = op.toNat * 0x10000000 := by
    rw [← and_mask_low16_toNat, h, toNat_append_eq, BitVec.toNat_ofNat]; omega
  simp only [← BitVec.toNat_inj, rsvField_toNat, opField_toNat, immHigh8_toNat, BitVec.toNat_ofNat]
  omega

/-- The mask of format P covers OP and RSV (30_encoding.md R71, R73). -/
theorem fields_of_and_mask_low24 {w : BusWord} {op : BitVec 4} (h : w &&& 0xFF000000#32 = op ++ 0#28) :
    rsvField w = 0#4 ∧ opField w = op := by
  have hbits : w.toNat / 0x1000000 * 0x1000000 = op.toNat * 0x10000000 := by
    rw [← and_mask_low24_toNat, h, toNat_append_eq, BitVec.toNat_ofNat]; omega
  simp only [← BitVec.toNat_inj, rsvField_toNat, opField_toNat, BitVec.toNat_ofNat]
  omega

theorem decode_of_setkey_match {w : BusWord} (h : w &&& 0xFFFF0000#32 = 0x10000000#32) :
    decode w = .ok (.setkey (immLow16 w)) := by
  obtain ⟨hrsv, hop, hzero⟩ := fields_of_and_mask_low16 (op := 0x1#4) h
  simp [decode, hrsv, hop, hzero]

theorem decode_of_keytag_match {w : BusWord} (h : w &&& 0xFFFF0000#32 = 0x20000000#32) :
    decode w = .ok (.keytag (immLow16 w)) := by
  obtain ⟨hrsv, hop, hzero⟩ := fields_of_and_mask_low16 (op := 0x2#4) h
  simp [decode, hrsv, hop, hzero]

theorem decode_of_setpass_match {w : BusWord} (h : w &&& 0xFF000000#32 = 0x30000000#32) :
    decode w = .ok (.setpass (immField w)) := by
  obtain ⟨hrsv, hop⟩ := fields_of_and_mask_low24 (op := 0x3#4) h
  simp [decode, hrsv, hop]

end Sys2Proof.Machine
end

section
/-! Key and message control (40_key_control.md R90, R92, R94): what each command does to the whole state. -/

namespace Sys2Proof.Machine

@[simp] theorem exec_setkey (k : Key) (s : State) : exec (.setkey k) s = .next (loadKey k s) := rfl

@[simp] theorem exec_keytag (t : DataWord) (s : State) : exec (.keytag t) s = .next (loadKey (keyOfTag t) s) := rfl

@[simp] theorem exec_setpass (p : PassCount) (s : State) : exec (.setpass p) s = .next (loadPass p s) := rfl

/-- R92's key with the value of JH_TAG_HIGH written out. -/
theorem keyOfTag_eq (t : DataWord) : keyOfTag t = 0x4A48#16 ^^^ t := rfl

/-- Settles O13: a matching word decodes to SETKEY of its low half, and SETKEY is the key load, whose record update the
statement writes out. -/
theorem setkeyLoadsTheKey : Obligations.SetkeyLoadsTheKey := by
  unfold Obligations.SetkeyLoadsTheKey
  exact ⟨fun _ h => decode_of_setkey_match h, exec_setkey⟩

/-- Settles O14: KEYTAG is the key load of R92's key. -/
theorem keytagLoadsTheTagKey : Obligations.KeytagLoadsTheTagKey := by
  unfold Obligations.KeytagLoadsTheTagKey
  refine ⟨fun _ h => decode_of_keytag_match h, fun x s => ?_⟩
  rw [exec_keytag, keyOfTag_eq]
  rfl

/-- Settles O15: a matching word decodes to SETPASS of its operand field, and SETPASS is the passthrough load, whose
record update the statement writes out. -/
theorem setpassLoadsThePassthroughCount : Obligations.SetpassLoadsThePassthroughCount := by
  unfold Obligations.SetpassLoadsThePassthroughCount
  exact ⟨fun _ h => decode_of_setpass_match h, exec_setpass⟩

end Sys2Proof.Machine
end

section
/-! The cipher and its engine (41_data_transform.md R110, R112, R114): the key update as a number and as a word, the
engine over a list of bytes, and a message no longer than its passthrough count (R115). -/

namespace Sys2Proof.Machine

/-- The update on unbounded integers, with KEY_SHIFT and KEY_ADD at their values (41_data_transform.md R112). -/
theorem nextKey_toNat (k : Key) : (nextKey k).toNat = ((k.toNat <<< 4) + k.toNat + 87) % 2 ^ 16 := by
  rw [nextKey, BitVec.toNat_ofNat, Nat.mod_mod]

/-- Making a word truncates by itself, so the update needs no other reduction (41_data_transform.md R112). -/
theorem nextKey_eq_ofNat (k : Key) : nextKey k = BitVec.ofNat 16 ((k.toNat <<< 4) + k.toNat + 87) := by
  rw [← BitVec.toNat_inj, nextKey_toNat, BitVec.toNat_ofNat]

/-- Settles O23: the update as a number, and R112's worked example. -/
theorem nextKeyIsTheShiftAndAddUpdate : Obligations.NextKeyIsTheShiftAndAddUpdate := by
  unfold Obligations.NextKeyIsTheShiftAndAddUpdate
  exact ⟨nextKey_toNat, by decide⟩

@[simp] theorem engineRun_nil (s : State) : engineRun [] s = ([], s) := rfl

@[simp] theorem engineRun_cons (x : Byte) (xs : List Byte) (s : State) :
    engineRun (x :: xs) s =
      ((engineStep x s).1 :: (engineRun xs (engineStep x s).2).1, (engineRun xs (engineStep x s).2).2) := rfl

/-- The engine raises no error, whatever it is fed (41_data_transform.md R113, R115). -/
theorem sameErrors_engineRun (b : List Byte) (s : State) : SameErrors s (engineRun b s).2 := by
  induction b generalizing s with
  | nil => exact ⟨rfl, rfl, rfl⟩
  | cons x xs ih =>
    obtain ⟨hill, hovf, hunf⟩ := ih (engineStep x s).2
    simp [SameErrors, hill, hovf, hunf]

/-- Each byte that is passed uses up one of PASS, so PASS lasts for a message that is no longer
(41_data_transform.md R115). -/
theorem engineRun_fst_of_length_le_pass {b : List Byte} {s : State} (h : b.length ≤ s.pass.toNat) :
    (engineRun b s).1 = b := by
  induction b generalizing s with
  | nil => rfl
  | cons x xs ih =>
    rw [List.length_cons] at h
    have hpass : s.pass ≠ 0#24 := by
      intro h0
      simp [h0] at h
    have hrest : xs.length ≤ (s.pass - 1#24).toNat := by bv_omega
    rw [engineRun_cons, engineStep_of_pass x hpass, ih hrest]

/-- The passthrough bytes are copied, and here they are the whole buffer (41_data_transform.md R110, R115). -/
theorem cipherApply_of_length_le {b : List Byte} {p : Nat} (h : b.length ≤ p) (k : Key) : cipherApply b k p = b := by
  simp [cipherApply, cipherWords, h]

/-- Settles O53: Apply copies a buffer within the passthrough count, the empty one among them, and the engine does so
byte by byte while PASS lasts. -/
theorem shortMessagePassesVerbatim : Obligations.ShortMessagePassesVerbatim := by
  unfold Obligations.ShortMessagePassesVerbatim
  exact ⟨fun _ k _ h => cipherApply_of_length_le h k,
    fun b s h => ⟨engineRun_fst_of_length_le_pass h, sameErrors_engineRun b s⟩,
    fun k p => cipherApply_of_length_le (Nat.zero_le p) k⟩

end Sys2Proof.Machine
end

section
/-! The data commands (41_data_transform.md R116, R117): which words they are, and what they leave when output is held
and when it is not. -/

namespace Sys2Proof.Machine

open Sys2Proof.Laws

/-- The mask of format B covers OP, RSV and the `0` bits 23:8 (30_encoding.md R71, R73). -/
theorem fields_of_and_mask_low8 {w : BusWord} {op : BitVec 4} (h : w &&& 0xFFFFFF00#32 = op ++ 0#28) :
    rsvField w = 0#4 ∧ opField w = op ∧ immHigh16 w = 0#16 := by
  have hbits : w.toNat / 0x100 * 0x100 = op.toNat * 0x10000000 := by
    rw [← and_mask_low8_toNat, h, toNat_append_eq, BitVec.toNat_ofNat]; omega
  simp only [← BitVec.toNat_inj, rsvField_toNat, opField_toNat, immHigh16_toNat, BitVec.toNat_ofNat]
  omega

theorem decode_of_xbyte_match {w : BusWord} (h : w &&& 0xFFFFFF00#32 = 0x40000000#32) :
    decode w = .ok (.xbyte (immLow8 w)) := by
  obtain ⟨hrsv, hop, hzero⟩ := fields_of_and_mask_low8 (op := 0x4#4) h
  simp [decode, hrsv, hop, hzero]

theorem exec_xbyte_of_held {s : State} (h : s.outCnt ≠ 0#2) (b : Byte) :
    exec (.xbyte b) s = .next (raiseError .overrun s) :=
  unlessOutputHeld_of_held _ h

theorem exec_xbyte_of_empty {s : State} (h : s.outCnt = 0#2) (b : Byte) :
    exec (.xbyte b) s = .next (transformByte b s) :=
  unlessOutputHeld_of_empty _ h

theorem exec_xword_of_empty {s : State} (h : s.outCnt = 0#2) (w : DataWord) :
    exec (.xword w) s = .next (transformWord w s) :=
  unlessOutputHeld_of_empty _ h

/-! The accepted XBYTE, one lemma per branch of the engine step (41_data_transform.md R113, R116). -/

theorem transformByte_of_pass (b : Byte) {s : State} (h : s.pass ≠ 0#24) :
    transformByte b s =
      { s with pass := s.pass - 1#24, count := s.count + 1#32, dout := b.setWidth 16, outCnt := 1#2 } := by
  rw [transformByte, engineStep_of_pass b h]
  rfl

theorem transformByte_of_high (b : Byte) {s : State} (h : s.pass = 0#24) (hp : s.phase = .high) :
    transformByte b s =
      { s with
        phase := .low, count := s.count + 1#32, dout := (b ^^^ highByte s.key).setWidth 16, outCnt := 1#2 } := by
  rw [transformByte, engineStep_of_high b h hp]
  rfl

theorem transformByte_of_low (b : Byte) {s : State} (h : s.pass = 0#24) (hp : s.phase = .low) :
    transformByte b s =
      { s with
        phase := .high, key := nextKey s.key, count := s.count + 1#32,
        dout := (b ^^^ lowByte s.key).setWidth 16, outCnt := 1#2 } := by
  rw [transformByte, engineStep_of_low b h hp]
  rfl

/-- Settles O19: the words of the XBYTE row, the overrun, and the transform along the three branches of the engine
step. -/
theorem xbyteTransformsOneByte : Obligations.XbyteTransformsOneByte := by
  unfold Obligations.XbyteTransformsOneByte
  refine ⟨fun _ h => decode_of_xbyte_match h, fun b s => ⟨?_, ?_, ?_, ?_⟩⟩
  · intro hheld
    exact exec_xbyte_of_held hheld b
  · intro hempty hpass
    rw [exec_xbyte_of_empty hempty, transformByte_of_pass b hpass]
  · intro hempty hpass hphase
    rw [exec_xbyte_of_empty hempty, transformByte_of_high b hpass hphase]
    rfl
  · intro hempty hpass hphase
    rw [exec_xbyte_of_empty hempty, transformByte_of_low b hpass hphase, nextKey_eq_ofNat]
    rfl

end Sys2Proof.Machine
end

section
/-! The DOUT read (41_data_transform.md R119, R120; 60_exceptions.md R162): its whole effect while output is held and
while none is, and the layout of the value it answers. -/

namespace Sys2Proof.Machine

open Sys2Proof.Laws

/-- Index 5 is DOUT (20_memory.md R52). -/
theorem performEvent_read_dout (s : State) :
    performEvent (.read 5#3) s = .next (reply (readValue .dout s) (readEffect .dout s)) := rfl

theorem performEvent_read_dout_of_held {s : State} (h : s.outCnt ≠ 0#2) :
    performEvent (.read 5#3) s = .next (reply (s.dout.setWidth 32) (emptyOutput s)) := by
  rw [performEvent_read_dout, readValue_dout_of_held h, readEffect_dout_of_held h]

theorem performEvent_read_dout_of_empty {s : State} (h : s.outCnt = 0#2) :
    performEvent (.read 5#3) s = .next (reply 0#32 (raiseError .underrun s)) := by
  rw [performEvent_read_dout, readValue_dout_of_empty h, readEffect_dout_of_empty h]

/-- After XBYTE the value is the output byte, zero-extended (41_data_transform.md R116, R119). -/
theorem readValue_dout_transformByte (b : Byte) (s : State) :
    readValue .dout (transformByte b s) = (engineStep b s).1.setWidth 32 := by
  have hheld : (transformByte b s).outCnt ≠ 0#2 := by simp [transformByte]
  rw [readValue_dout_of_held hheld, transformByte, holdOutput_dout, zeroExtendByte]
  exact BitVec.setWidth_setWidth (by decide)

/-- After XWORD the value is the two output bytes, the first in bits 15:8 (41_data_transform.md R117, R119). -/
theorem readValue_dout_transformWord (w : DataWord) (s : State) :
    readValue .dout (transformWord w s) =
      0#16 ++ (engineStep (highByte w) s).1 ++ (engineStep (lowByte w) (engineStep (highByte w) s).2).1 := by
  have hheld : (transformWord w s).outCnt ≠ 0#2 := by simp [transformWord]
  rw [readValue_dout_of_held hheld, transformWord, holdOutput_dout, pairBytes]
  simp only [← BitVec.toNat_inj, toNat_append_eq, BitVec.toNat_setWidth, BitVec.toNat_ofNat]
  omega

/-- Settles O25: the read while output is held, then the value after each data command. -/
theorem doutReadReturnsAndEmptiesTheOutput : Obligations.DoutReadReturnsAndEmptiesTheOutput := by
  unfold Obligations.DoutReadReturnsAndEmptiesTheOutput
  refine ⟨fun s h => performEvent_read_dout_of_held h, ?_, ?_⟩
  · intro b s t hempty ht
    rw [exec_xbyte_of_empty hempty] at ht
    cases ht
    exact readValue_dout_transformByte b s
  · intro w s t hempty ht
    rw [exec_xword_of_empty hempty] at ht
    cases ht
    exact readValue_dout_transformWord w s

/-- The cause code is the number of the flag's STATUS bit (10_state.md R24; 60_exceptions.md R163). -/
theorem statusWord_getLsbD_causeCode (c : ErrorCause) (s : State) :
    (statusWord s).getLsbD (causeCode c) = errorFlag c s := by
  have hcnt := s.outCnt.isLt
  have hphase := (phaseBit s.phase).isLt
  have hill := s.errIll.toNat_le
  have hovf := s.errOvf.toNat_le
  have hunf := s.errUnf.toNat_le
  rw [Bool.eq_iff_iff, BitVec.getLsbD, Nat.testBit_eq_decide_div_mod_eq, decide_eq_true_iff, statusWord_toNat,
    ← Bool.toNat_eq_one]
  simp only [BitVec.toNat_ofBool]
  cases c <;> simp only [causeCode, errorFlag] <;> omega

/-- Settles O26: the read while no output is held, and the flag's place in STATUS by its cause code. -/
theorem emptyDoutReadUnderruns : Obligations.EmptyDoutReadUnderruns := by
  unfold Obligations.EmptyDoutReadUnderruns
  exact ⟨fun s h => performEvent_read_dout_of_empty h, rfl, statusWord_getLsbD_causeCode .underrun⟩

end Sys2Proof.Machine
end

section
/-! The system commands (42_system.md R140, R142, R144), all of format N: each has one word, every other word with its
OP is rejected, and each has one effect on the whole state. -/

namespace Sys2Proof.Machine

open Sys2Proof.Laws

/-! Format N fixes every bit (30_encoding.md R71, R73): its mask covers the word, and OP, RSV and IMM are the word. -/

theorem eq_of_and_mask_none {w v : BusWord} (h : w &&& 0xFFFFFFFF#32 = v) : w = v := by
  rw [← BitVec.toNat_inj, ← and_mask_none_toNat, h]

theorem eq_of_fields {w : BusWord} {op : BitVec 4} (hop : opField w = op) (hrsv : rsvField w = 0#4)
    (himm : immField w = 0#24) : w = op ++ 0#28 := by
  simp only [← BitVec.toNat_inj, opField_toNat, rsvField_toNat, immField_toNat, toNat_append_eq,
    BitVec.toNat_ofNat] at hop hrsv himm ⊢
  omega

theorem decode_of_nop_match {w : BusWord} (h : w &&& 0xFFFFFFFF#32 = 0x00000000#32) : decode w = .ok .nop := by
  rw [eq_of_and_mask_none h]
  rfl

theorem decode_of_clrerr_match {w : BusWord} (h : w &&& 0xFFFFFFFF#32 = 0xE0000000#32) : decode w = .ok .clrerr := by
  rw [eq_of_and_mask_none h]
  rfl

theorem decode_of_sreset_match {w : BusWord} (h : w &&& 0xFFFFFFFF#32 = 0xF0000000#32) : decode w = .ok .sreset := by
  rw [eq_of_and_mask_none h]
  rfl

/-- A word with an OP of format N that is not the one word of that OP has RSV or IMM not 0, and R76 rejects it
(30_encoding.md). -/
theorem exists_decode_error_of_format_none {w : BusWord} {op : BitVec 4} (hop : opField w = op)
    (hf : formatOfOp op = some .none) (hne : w ≠ op ++ 0#28) : ∃ r, decode w = .error r := by
  by_cases hrsv : rsvField w = 0#4
  · have himm : immField w ≠ 0#24 := fun himm => hne (eq_of_fields hop hrsv himm)
    have hbits : immField w &&& Format.none.zeroMask ≠ 0#24 := mt (immField_eq_zero_iff w).mpr himm
    exact ⟨_, decode_of_zeroBits_ne_zero hrsv (hop ▸ hf) hbits⟩
  · exact ⟨_, decode_of_rsv_ne_zero hrsv⟩

/-- A misspelled command of format N is an illegal word: it sets ERR_ILL instead of its own effect (42_system.md R142,
R144; 60_exceptions.md R160). -/
theorem performEvent_write_of_format_none {w : BusWord} {op : BitVec 4} (hop : opField w = op)
    (hf : formatOfOp op = some .none) (hne : w ≠ op ++ 0#28) (s : State) :
    performEvent (.write 0#3 w) s = .next { s with errIll := true } := by
  obtain ⟨r, herr⟩ := exists_decode_error_of_format_none hop hf hne
  exact performEvent_write_of_error herr s

@[simp] theorem exec_nop (s : State) : exec .nop s = .next s := rfl

@[simp] theorem exec_clrerr (s : State) : exec .clrerr s = .next (clearErrors s) := rfl

/-- Settles O11: CLRERR's one word, its effect, whose record update the statement writes out, and the other words with
OP 0xE, which are illegal. -/
theorem clrerrClearsTheErrorFlags : Obligations.ClrerrClearsTheErrorFlags := by
  unfold Obligations.ClrerrClearsTheErrorFlags
  exact ⟨fun _ h => decode_of_clrerr_match h, exec_clrerr,
    fun _ s hop hne => performEvent_write_of_format_none (op := 0xE#4) hop rfl hne s⟩

/-- Settles O12: SRESET and a hardware reset both come to `resetBlock s`, whose registers the lemmas of Laws/State.lean
give; the other words with OP 0xF are illegal. -/
theorem sresetRestoresResetValues : Obligations.SresetRestoresResetValues := by
  unfold Obligations.SresetRestoresResetValues
  refine ⟨fun _ h => decode_of_sreset_match h, fun s => ?_,
    fun _ s hop hne => performEvent_write_of_format_none (op := 0xF#4) hop rfl hne s⟩
  exact ⟨resetBlock s, exec_sreset s, performEvent_hardwareReset s, by simp⟩

/-- Settles O10: NOP's one word, no effect, and the other words with OP 0, which the decoder rejects. -/
theorem nopChangesNothing : Obligations.NopChangesNothing := by
  unfold Obligations.NopChangesNothing
  refine ⟨fun _ h => decode_of_nop_match h, exec_nop, fun w i hop hne hok => ?_⟩
  obtain ⟨r, herr⟩ := exists_decode_error_of_format_none (op := 0x0#4) hop rfl hne
  rw [herr] at hok
  cases hok

end Sys2Proof.Machine
end

section
/-! The illegal command word (60_exceptions.md R160): the opcode map's match and mask columns and the three checks of
R73's prose (30_encoding.md) name the same words, and the decoder rejects every other word. -/

namespace Sys2Proof.Machine

open Sys2Proof.Laws

/-- The row matches the OP with RSV = 0, and its mask covers OP, RSV and the `0` bits of the format (30_encoding.md
R71, R73). -/
abbrev IsRowOf (row : OpcodeRow) (op : BitVec 4) (f : Format) : Prop :=
  row.matchBits = op ++ 0#4 ++ 0#24 ∧ row.maskBits = 0xF#4 ++ 0xF#4 ++ f.zeroMask

/-- Every row belongs to a listed OP; a check of the eight rows. -/
theorem exists_isRowOf_of_mem : ∀ row ∈ opcodeMap, ∃ op, ∃ f ∈ formatOfOp op, IsRowOf row op f := by decide

/-- Every listed OP has its row; a check of the sixteen OP values. -/
theorem exists_row_of_formatOfOp : ∀ op, ∀ f ∈ formatOfOp op, ∃ row ∈ opcodeMap, IsRowOf row op f := by decide

/-- A word is its three fields (30_encoding.md R71). -/
theorem fields_append (w : BusWord) : opField w ++ rsvField w ++ immField w = w := by
  simp only [← BitVec.toNat_inj, toNat_append_eq, opField_toNat, rsvField_toNat, immField_toNat]
  omega

theorem append_eq_append_iff {m n : Nat} {a b : BitVec m} {x y : BitVec n} : a ++ x = b ++ y ↔ a = b ∧ x = y := by
  constructor
  · intro h
    exact ⟨by simpa only [BitVec.extractLsb'_append_eq_left] using congrArg (BitVec.extractLsb' n m) h,
      by simpa only [BitVec.extractLsb'_append_eq_right] using congrArg (BitVec.extractLsb' 0 n) h⟩
  · rintro ⟨rfl, rfl⟩
    rfl

/-- A row's mask keeps OP and RSV and takes the `0` bits of the format from IMM (30_encoding.md R73). -/
theorem and_maskBits_of_isRowOf {row : OpcodeRow} {op : BitVec 4} {f : Format} (hrow : IsRowOf row op f)
    (w : BusWord) : w &&& row.maskBits = opField w ++ rsvField w ++ (immField w &&& f.zeroMask) := by
  have hones (v : BitVec 4) : v &&& 0xF#4 = v := BitVec.and_allOnes
  conv_lhs => rw [← fields_append w, hrow.2, BitVec.and_append, BitVec.and_append, hones, hones]

/-- So a row's comparison is one test of each field. -/
theorem selectsRow_iff_fields {row : OpcodeRow} {op : BitVec 4} {f : Format} (hrow : IsRowOf row op f) (w : BusWord) :
    selectsRow w row = true ↔ opField w = op ∧ rsvField w = 0#4 ∧ immField w &&& f.zeroMask = 0#24 := by
  rw [selectsRow, beq_iff_eq, and_maskBits_of_isRowOf hrow, hrow.1, append_eq_append_iff, append_eq_append_iff,
    and_assoc]

theorem wellFormedWord_eq_false_iff (w : BusWord) :
    wellFormedWord w = false ↔ opListed w = false ∨ rsvClear w = false ∨ zeroBitsClear w = false := by
  simp only [wellFormedWord, Bool.and_eq_false_iff, or_assoc]

/-- The converse of `wellFormedWord_of_fields`. -/
theorem exists_format_of_wellFormedWord {w : BusWord} (h : wellFormedWord w = true) :
    ∃ f, formatOfOp (opField w) = some f ∧ rsvField w = 0#4 ∧ immField w &&& f.zeroMask = 0#24 := by
  obtain ⟨⟨hop, hrsv⟩, hzero⟩ : (opListed w = true ∧ rsvClear w = true) ∧ zeroBitsClear w = true := by
    simpa only [wellFormedWord, Bool.and_eq_true] using h
  obtain ⟨f, hf⟩ := Option.isSome_iff_exists.mp hop
  rw [zeroBitsClear, hf] at hzero
  exact ⟨f, hf, eq_of_beq hrsv, eq_of_beq hzero⟩

/-- The match and mask columns and the prose of R73 name the same words (30_encoding.md). -/
theorem exists_selectsRow_iff_wellFormedWord (w : BusWord) :
    (∃ row ∈ opcodeMap, selectsRow w row = true) ↔ wellFormedWord w = true := by
  constructor
  · rintro ⟨row, hmem, hsel⟩
    obtain ⟨op, f, hf, hrow⟩ := exists_isRowOf_of_mem row hmem
    obtain ⟨hop, hrsv, hzero⟩ := (selectsRow_iff_fields hrow w).mp hsel
    exact wellFormedWord_of_fields (hop ▸ hf) (congrArg BitVec.toNat hrsv) hzero
  · intro hwf
    obtain ⟨f, hf, hrsv, hzero⟩ := exists_format_of_wellFormedWord hwf
    obtain ⟨row, hmem, hrow⟩ := exists_row_of_formatOfOp (opField w) f hf
    exact ⟨row, hmem, (selectsRow_iff_fields hrow w).mpr ⟨rfl, hrsv, hzero⟩⟩

theorem selectsNoRow_iff (w : BusWord) :
    (∀ row ∈ opcodeMap, selectsRow w row = false) ↔ wellFormedWord w = false := by
  rw [← Bool.not_eq_true, ← exists_selectsRow_iff_wellFormedWord]
  push Not
  simp only [Bool.not_eq_true]

/-- The OP values without a format are the reserved ones, 0x6 to 0xD (30_encoding.md R75). -/
theorem reserved_of_formatOfOp_eq_none :
    ∀ op : BitVec 4, formatOfOp op = none → 0x6 ≤ op.toNat ∧ op.toNat ≤ 0xD := by decide

/-- A word that fails a check of R73 meets one of the decoder's three rejections (30_encoding.md R74). -/
theorem exists_decode_error_of_not_wellFormed {w : BusWord} (h : wellFormedWord w = false) :
    ∃ r, decode w = .error r := by
  by_cases hrsv : rsvField w = 0#4
  · cases hf : formatOfOp (opField w) with
    | none =>
      obtain ⟨hlow, hhigh⟩ := reserved_of_formatOfOp_eq_none _ hf
      exact ⟨_, decode_of_reserved_op hrsv hlow hhigh⟩
    | some f =>
      have hbits : immField w &&& f.zeroMask ≠ 0#24 := fun hzero =>
        Bool.false_ne_true (h.symm.trans (wellFormedWord_of_fields hf (congrArg BitVec.toNat hrsv) hzero))
      exact ⟨_, decode_of_zeroBits_ne_zero hrsv hf hbits⟩
  · exact ⟨_, decode_of_rsv_ne_zero hrsv⟩

/-- Settles O7: a word that selects no row fails a check of R73, so the decoder rejects it; the flag's place in STATUS
is its cause code. -/
theorem illegalWordOnlySetsErrIll : Obligations.IllegalWordOnlySetsErrIll := by
  unfold Obligations.IllegalWordOnlySetsErrIll
  refine ⟨fun w s hnone => ?_, fun w => (selectsNoRow_iff w).trans (wellFormedWord_eq_false_iff w), rfl,
    statusWord_getLsbD_causeCode .illegal⟩
  obtain ⟨r, herr⟩ := exists_decode_error_of_not_wellFormed ((selectsNoRow_iff w).mp hnone)
  exact performEvent_write_of_error herr s

end Sys2Proof.Machine
end

section
/-! The overrun (60_exceptions.md R161): the words of XBYTE and XWORD, written to CMD while output is held. -/

namespace Sys2Proof.Machine

open Sys2Proof.Laws

theorem decode_of_xword_match {w : BusWord} (h : w &&& 0xFFFF0000#32 = 0x50000000#32) :
    decode w = .ok (.xword (immLow16 w)) := by
  obtain ⟨hrsv, hop, hzero⟩ := fields_of_and_mask_low16 (op := 0x5#4) h
  simp [decode, hrsv, hop, hzero]

theorem decode_encode_xbyte (b : Byte) : decode (encode (.xbyte b)) = .ok (.xbyte b) := by
  have hword := encode_xbyte_toNat b
  have hmatch : encode (.xbyte b) &&& 0xFFFFFF00#32 = 0x40000000#32 := by
    rw [← BitVec.toNat_inj, and_mask_low8_toNat, hword, BitVec.toNat_ofNat]
    omega
  have hoperand : immLow8 (encode (.xbyte b)) = b := by
    rw [← BitVec.toNat_inj, immLow8_toNat, hword]
    omega
  rw [decode_of_xbyte_match hmatch, hoperand]

theorem decode_encode_xword (w : DataWord) : decode (encode (.xword w)) = .ok (.xword w) := by
  have hword := encode_xword_toNat w
  have hmatch : encode (.xword w) &&& 0xFFFF0000#32 = 0x50000000#32 := by
    rw [← BitVec.toNat_inj, and_mask_low16_toNat, hword, BitVec.toNat_ofNat]
    omega
  have hoperand : immLow16 (encode (.xword w)) = w := by
    rw [← BitVec.toNat_inj, immLow16_toNat, hword]
    omega
  rw [decode_of_xword_match hmatch, hoperand]

theorem exec_xword_of_held {s : State} (h : s.outCnt ≠ 0#2) (w : DataWord) :
    exec (.xword w) s = .next (raiseError .overrun s) :=
  unlessOutputHeld_of_held _ h

/-- A legal word written to CMD runs its command (30_encoding.md R70, R74). -/
theorem performEvent_write_of_ok {w : BusWord} {i : Instr} (h : decode w = .ok i) (s : State) :
    performEvent (.write 0#3 w) s = exec i s :=
  (performEvent_write_cmd w s).trans (writeCommand_of_ok h s)

/-- Settles O22: each word decodes to its data command, and while output is held both commands only raise the overrun;
the flag's place in STATUS is its cause code. -/
theorem dataCommandWhileOutputIsHeldOverruns : Obligations.DataCommandWhileOutputIsHeldOverruns := by
  unfold Obligations.DataCommandWhileOutputIsHeldOverruns
  refine ⟨fun b s hheld => ?_, fun w s hheld => ?_, rfl, statusWord_getLsbD_causeCode .overrun⟩
  · exact (performEvent_write_of_ok (decode_encode_xbyte b) s).trans (exec_xbyte_of_held hheld b)
  · exact (performEvent_write_of_ok (decode_encode_xword w) s).trans (exec_xword_of_held hheld w)

end Sys2Proof.Machine
end

section
/-! The encoding as a whole (30_encoding.md R73, R74, R77): every command is read back from its own word, and the words
that decode are those that match a row of the opcode map. -/

namespace Sys2Proof.Machine

open Sys2Proof.Laws

/-! The fields of an encoded word, for the formats that carry an operand (30_encoding.md R71). -/

theorem fields_of_operand16 (op : BitVec 4) (v : BitVec 16) :
    rsvField (op ++ 0#4 ++ 0#8 ++ v) = 0#4 ∧ opField (op ++ 0#4 ++ 0#8 ++ v) = op ∧
      immHigh8 (op ++ 0#4 ++ 0#8 ++ v) = 0#8 ∧ immLow16 (op ++ 0#4 ++ 0#8 ++ v) = v := by
  simp only [← BitVec.toNat_inj, rsvField_toNat, opField_toNat, immHigh8_toNat, immLow16_toNat, toNat_append_eq,
    BitVec.toNat_ofNat]
  omega

theorem fields_of_operand24 (op : BitVec 4) (v : BitVec 24) :
    rsvField (op ++ 0#4 ++ v) = 0#4 ∧ opField (op ++ 0#4 ++ v) = op ∧ immField (op ++ 0#4 ++ v) = v := by
  simp only [← BitVec.toNat_inj, rsvField_toNat, opField_toNat, immField_toNat, toNat_append_eq, BitVec.toNat_ofNat]
  omega

theorem decode_encode_setkey (k : Key) : decode (encode (.setkey k)) = .ok (.setkey k) := by
  obtain ⟨hrsv, hop, hzero, hoperand⟩ := fields_of_operand16 0x1#4 k
  simp only [encode, decode, hrsv, hop, hzero, hoperand]
  rfl

theorem decode_encode_keytag (t : DataWord) : decode (encode (.keytag t)) = .ok (.keytag t) := by
  obtain ⟨hrsv, hop, hzero, hoperand⟩ := fields_of_operand16 0x2#4 t
  simp only [encode, decode, hrsv, hop, hzero, hoperand]
  rfl

theorem decode_encode_setpass (p : PassCount) : decode (encode (.setpass p)) = .ok (.setpass p) := by
  obtain ⟨hrsv, hop, hoperand⟩ := fields_of_operand24 0x3#4 p
  simp only [encode, decode, hrsv, hop, hoperand]
  rfl

/-- Settles O1, command by command: the fields of each word are what the decoder tests and takes the operand from. -/
theorem decodeOfEncodeIsTheInstruction : Obligations.DecodeOfEncodeIsTheInstruction := by
  unfold Obligations.DecodeOfEncodeIsTheInstruction
  intro i
  cases i with
  | nop | clrerr | sreset => rfl
  | setkey k => exact decode_encode_setkey k
  | keytag t => exact decode_encode_keytag t
  | setpass p => exact decode_encode_setpass p
  | xbyte b => exact decode_encode_xbyte b
  | xword w => exact decode_encode_xword w

/-- Settles O5: each example is the encoding of its command. -/
theorem exampleWordsDecode : Obligations.ExampleWordsDecode := by
  unfold Obligations.ExampleWordsDecode
  exact ⟨decode_encode_setkey 0x1234#16, decode_encode_keytag 0x1234#16, decode_encode_setpass 0x000004#24,
    decode_encode_xbyte 0x41#8, decode_encode_xword 0x4142#16, rfl⟩

/-- A legal word passes the three checks of R73's prose: a word that fails one is rejected (30_encoding.md R74). -/
theorem wellFormedWord_of_decode {w : BusWord} {i : Instr} (h : decode w = .ok i) : wellFormedWord w = true := by
  by_contra hwf
  obtain ⟨r, herr⟩ := exists_decode_error_of_not_wellFormed (Bool.eq_false_of_not_eq_true hwf)
  cases h.symm.trans herr

/-- The rows of the opcode map, written out (30_encoding.md R73). -/
theorem exists_selectsRow_iff (w : BusWord) :
    (∃ row ∈ opcodeMap, selectsRow w row = true) ↔
      w &&& 0xFFFFFFFF#32 = 0x00000000#32 ∨ w &&& 0xFFFF0000#32 = 0x10000000#32 ∨
      w &&& 0xFFFF0000#32 = 0x20000000#32 ∨ w &&& 0xFF000000#32 = 0x30000000#32 ∨
      w &&& 0xFFFFFF00#32 = 0x40000000#32 ∨ w &&& 0xFFFF0000#32 = 0x50000000#32 ∨
      w &&& 0xFFFFFFFF#32 = 0xE0000000#32 ∨ w &&& 0xFFFFFFFF#32 = 0xF0000000#32 := by
  simp only [opcodeMap, selectsRow, List.mem_cons, List.not_mem_nil, exists_eq_or_imp, beq_iff_eq, or_false,
    exists_eq_left]

/-- A word decodes along the row it matches, and only along a row it matches (30_encoding.md R73, R74). -/
theorem decode_eq_ok_iff (w : BusWord) (i : Instr) :
    decode w = .ok i ↔
      (w &&& 0xFFFFFFFF#32 = 0x00000000#32 ∧ i = .nop) ∨
      (w &&& 0xFFFF0000#32 = 0x10000000#32 ∧ i = .setkey (immLow16 w)) ∨
      (w &&& 0xFFFF0000#32 = 0x20000000#32 ∧ i = .keytag (immLow16 w)) ∨
      (w &&& 0xFF000000#32 = 0x30000000#32 ∧ i = .setpass (immField w)) ∨
      (w &&& 0xFFFFFF00#32 = 0x40000000#32 ∧ i = .xbyte (immLow8 w)) ∨
      (w &&& 0xFFFF0000#32 = 0x50000000#32 ∧ i = .xword (immLow16 w)) ∨
      (w &&& 0xFFFFFFFF#32 = 0xE0000000#32 ∧ i = .clrerr) ∨
      (w &&& 0xFFFFFFFF#32 = 0xF0000000#32 ∧ i = .sreset) := by
  constructor
  · intro hok
    have operand {j : Instr} (hj : decode w = .ok j) : i = j := by
      rw [hok] at hj
      cases hj
      rfl
    have hrow := (exists_selectsRow_iff w).mp
      ((exists_selectsRow_iff_wellFormedWord w).mpr (wellFormedWord_of_decode hok))
    exact hrow.imp (fun h => ⟨h, operand (decode_of_nop_match h)⟩) <|
      Or.imp (fun h => ⟨h, operand (decode_of_setkey_match h)⟩) <|
      Or.imp (fun h => ⟨h, operand (decode_of_keytag_match h)⟩) <|
      Or.imp (fun h => ⟨h, operand (decode_of_setpass_match h)⟩) <|
      Or.imp (fun h => ⟨h, operand (decode_of_xbyte_match h)⟩) <|
      Or.imp (fun h => ⟨h, operand (decode_of_xword_match h)⟩) <|
      Or.imp (fun h => ⟨h, operand (decode_of_clrerr_match h)⟩)
        (fun h => ⟨h, operand (decode_of_sreset_match h)⟩)
  · rintro (⟨h, rfl⟩ | ⟨h, rfl⟩ | ⟨h, rfl⟩ | ⟨h, rfl⟩ | ⟨h, rfl⟩ | ⟨h, rfl⟩ | ⟨h, rfl⟩ | ⟨h, rfl⟩)
    · exact decode_of_nop_match h
    · exact decode_of_setkey_match h
    · exact decode_of_keytag_match h
    · exact decode_of_setpass_match h
    · exact decode_of_xbyte_match h
    · exact decode_of_xword_match h
    · exact decode_of_clrerr_match h
    · exact decode_of_sreset_match h

/-- Settles O3: the fields of R71 are the operands that the statement writes out. -/
theorem decodeFollowsMatchAndMask : Obligations.DecodeFollowsMatchAndMask := by
  unfold Obligations.DecodeFollowsMatchAndMask
  exact decode_eq_ok_iff

/-- Settles O6: a well-formed word matches a row, along which it decodes. -/
theorem decodesExactlyWhenWellFormed : Obligations.DecodesExactlyWhenWellFormed := by
  unfold Obligations.DecodesExactlyWhenWellFormed
  intro w
  refine ⟨fun ⟨i, hok⟩ => wellFormedWord_of_decode hok, fun hwf => ?_⟩
  obtain h | h | h | h | h | h | h | h :=
    (exists_selectsRow_iff w).mp ((exists_selectsRow_iff_wellFormedWord w).mpr hwf)
  · exact ⟨_, decode_of_nop_match h⟩
  · exact ⟨_, decode_of_setkey_match h⟩
  · exact ⟨_, decode_of_keytag_match h⟩
  · exact ⟨_, decode_of_setpass_match h⟩
  · exact ⟨_, decode_of_xbyte_match h⟩
  · exact ⟨_, decode_of_xword_match h⟩
  · exact ⟨_, decode_of_clrerr_match h⟩
  · exact ⟨_, decode_of_sreset_match h⟩

/-! A matching word is its row's match bits with the operand in the bits that the mask leaves free. -/

theorem toNat_of_and_mask_low16 {w : BusWord} {m : Nat} (h : (w &&& 0xFFFF0000#32).toNat = m) :
    w.toNat = m + (immLow16 w).toNat := by
  rw [and_mask_low16_toNat] at h
  rw [immLow16_toNat]
  omega

theorem toNat_of_and_mask_low24 {w : BusWord} {m : Nat} (h : (w &&& 0xFF000000#32).toNat = m) :
    w.toNat = m + (immField w).toNat := by
  rw [and_mask_low24_toNat] at h
  rw [immField_toNat]
  omega

theorem toNat_of_and_mask_low8 {w : BusWord} {m : Nat} (h : (w &&& 0xFFFFFF00#32).toNat = m) :
    w.toNat = m + (immLow8 w).toNat := by
  rw [and_mask_low8_toNat] at h
  rw [immLow8_toNat]
  omega

/-- Settles O2, row by row: match bits and operand together are the whole word. -/
theorem decodedWordIsTheEncoding : Obligations.DecodedWordIsTheEncoding := by
  unfold Obligations.DecodedWordIsTheEncoding
  intro w i hok
  rw [← BitVec.toNat_inj]
  obtain ⟨h, rfl⟩ | ⟨h, rfl⟩ | ⟨h, rfl⟩ | ⟨h, rfl⟩ | ⟨h, rfl⟩ | ⟨h, rfl⟩ | ⟨h, rfl⟩ | ⟨h, rfl⟩ :=
    (decode_eq_ok_iff w i).mp hok
  · rw [eq_of_and_mask_none h]; rfl
  · rw [encode_setkey_toNat, toNat_of_and_mask_low16 (congrArg BitVec.toNat h)]; rfl
  · rw [encode_keytag_toNat, toNat_of_and_mask_low16 (congrArg BitVec.toNat h)]; rfl
  · rw [encode_setpass_toNat, toNat_of_and_mask_low24 (congrArg BitVec.toNat h)]; rfl
  · rw [encode_xbyte_toNat, toNat_of_and_mask_low8 (congrArg BitVec.toNat h)]; rfl
  · rw [encode_xword_toNat, toNat_of_and_mask_low16 (congrArg BitVec.toNat h)]; rfl
  · rw [eq_of_and_mask_none h]; rfl
  · rw [eq_of_and_mask_none h]; rfl

/-- The OP bits of a row's match column (30_encoding.md R71, R73). -/
theorem opField_matchBits_of_selectsRow {w : BusWord} {row : OpcodeRow} (hmem : row ∈ opcodeMap)
    (hsel : selectsRow w row = true) : opField row.matchBits = opField w := by
  obtain ⟨op, f, -, hrow⟩ := exists_isRowOf_of_mem row hmem
  obtain ⟨hop, -, -⟩ := (selectsRow_iff_fields hrow w).mp hsel
  rw [hrow.1, hop]
  exact (fields_of_operand24 op 0#24).2.1

/-- No two rows have the same OP; a check of the eight rows. -/
theorem opcodeMap_pairwise_op : opcodeMap.Pairwise (fun r r' => opField r.matchBits ≠ opField r'.matchBits) := by
  decide

/-- Settles O4: a row selected by w has the OP of w, and no two rows have the same OP. -/
theorem noWordSelectsTwoRows : Obligations.NoWordSelectsTwoRows := by
  unfold Obligations.NoWordSelectsTwoRows
  intro w
  have hop (row) (h : row ∈ opcodeMap.filter (selectsRow w)) : opField row.matchBits = opField w :=
    opField_matchBits_of_selectsRow (List.mem_filter.mp h).1 (List.mem_filter.mp h).2
  have hdistinct := opcodeMap_pairwise_op.filter (selectsRow w)
  match hrows : opcodeMap.filter (selectsRow w) with
  | [] | [_] => simp
  | r :: r' :: rest =>
    rw [hrows] at hop hdistinct
    exact absurd ((hop r (by simp)).trans (hop r' (by simp)).symm) (List.rel_of_pairwise_cons hdistinct (by simp))

end Sys2Proof.Machine
end

section
/-! The engine registers (41_data_transform.md R113): the engine reads and writes KEY, PASS, PHASE and COUNT alone, so
it commutes with every update of the rest of the state. -/

namespace Sys2Proof.Machine

/-- `r` with the four engine registers of `e`. -/
def withEngine (e r : State) : State :=
  { r with key := e.key, pass := e.pass, phase := e.phase, count := e.count }

/-- The update neither reads nor writes the engine registers. -/
def OutsideEngine (f : State → State) : Prop := ∀ e r, f (withEngine e r) = withEngine e (f r)

theorem withEngine_self (s : State) : withEngine s s = s := rfl

theorem engineStep_withEngine (x : Byte) (e r : State) :
    engineStep x (withEngine e r) = ((engineStep x e).1, withEngine (engineStep x e).2 r) := by
  by_cases hpass : e.pass = 0#24
  · cases hphase : e.phase with
    | high =>
      rw [engineStep_of_high x hpass hphase, engineStep_of_high x (s := withEngine e r) hpass hphase]
      rfl
    | low =>
      rw [engineStep_of_low x hpass hphase, engineStep_of_low x (s := withEngine e r) hpass hphase]
      rfl
  · rw [engineStep_of_pass x hpass, engineStep_of_pass x (s := withEngine e r) hpass]
    rfl

theorem engineStep_outside {f : State → State} (hf : OutsideEngine f) (x : Byte) (s : State) :
    engineStep x (f s) = ((engineStep x s).1, f (engineStep x s).2) := by
  have hframe : withEngine (engineStep x s).2 s = (engineStep x s).2 :=
    (congrArg Prod.snd (engineStep_withEngine x s s)).symm
  calc engineStep x (f s)
      = engineStep x (withEngine s (f s)) := by rw [← hf, withEngine_self]
    _ = ((engineStep x s).1, withEngine (engineStep x s).2 (f s)) := engineStep_withEngine x s (f s)
    _ = ((engineStep x s).1, f (engineStep x s).2) := by rw [← hf, hframe]

theorem engineRun_outside {f : State → State} (hf : OutsideEngine f) (b : List Byte) (s : State) :
    engineRun b (f s) = ((engineRun b s).1, f (engineRun b s).2) := by
  induction b generalizing s with
  | nil => rfl
  | cons x xs ih => simp only [engineRun_cons, engineStep_outside hf, ih]

/-! What a message never touches, as for one engine step. -/

@[simp] theorem engineRun_keyinit (b : List Byte) (s : State) : (engineRun b s).2.keyinit = s.keyinit := by
  induction b generalizing s with
  | nil => rfl
  | cons x xs ih => simp [ih]

@[simp] theorem engineRun_issued (b : List Byte) (s : State) : (engineRun b s).2.issued = s.issued := by
  induction b generalizing s with
  | nil => rfl
  | cons x xs ih => simp [ih]

@[simp] theorem engineRun_replies (b : List Byte) (s : State) : (engineRun b s).2.replies = s.replies := by
  induction b generalizing s with
  | nil => rfl
  | cons x xs ih => simp [ih]

theorem engineRun_append (b c : List Byte) (s : State) :
    engineRun (b ++ c) s =
      ((engineRun b s).1 ++ (engineRun c (engineRun b s).2).1, (engineRun c (engineRun b s).2).2) := by
  induction b generalizing s with
  | nil => rfl
  | cons x xs ih => simp [ih]

/-! An update outside the engine and the output commutes with a data command. -/

theorem transformByte_outside {f : State → State} (hf : OutsideEngine f)
    (hout : ∀ v n s, holdOutput v n (f s) = f (holdOutput v n s)) (b : Byte) (s : State) :
    transformByte b (f s) = f (transformByte b s) := by
  rw [transformByte, engineStep_outside hf, hout]
  rfl

theorem transformWord_outside {f : State → State} (hf : OutsideEngine f)
    (hout : ∀ v n s, holdOutput v n (f s) = f (holdOutput v n s)) (w : DataWord) (s : State) :
    transformWord w (f s) = f (transformWord w s) := by
  simp only [transformWord, engineStep_outside hf, hout]

/-- The new engine state is the same for every input byte (41_data_transform.md R113). -/
theorem engineStep_snd_eq (x y : Byte) (s : State) : (engineStep x s).2 = (engineStep y s).2 := by
  by_cases hpass : s.pass = 0#24
  · cases hphase : s.phase with
    | high => rw [engineStep_of_high x hpass hphase, engineStep_of_high y hpass hphase]
    | low => rw [engineStep_of_low x hpass hphase, engineStep_of_low y hpass hphase]
  · rw [engineStep_of_pass x hpass, engineStep_of_pass y hpass]

/-- Settles O52, by induction on the two buffers at once. -/
theorem engineStateDoesNotDependOnTheData : Obligations.EngineStateDoesNotDependOnTheData := by
  unfold Obligations.EngineStateDoesNotDependOnTheData
  intro b
  induction b with
  | nil =>
    intro c s hlen
    rw [List.eq_nil_of_length_eq_zero hlen.symm]
  | cons x xs ih =>
    intro c s hlen
    cases c with
    | nil => cases hlen
    | cons y ys =>
      rw [engineRun_cons, engineRun_cons, engineStep_snd_eq x y s]
      exact ih ys _ (Nat.succ.inj hlen)

end Sys2Proof.Machine
end

section
/-! Apply and the engine (41_data_transform.md R110 to R114, R122): Apply byte by byte, its length and its inverse, and
the engine that computes it. -/

namespace Sys2Proof.Machine

/-! Two bytes in one word, and the XOR of each half (20_memory.md R57). -/

@[simp] theorem highByte_pairBytes (x y : Byte) : highByte (pairBytes x y) = x := BitVec.extractLsb'_append_eq_left

@[simp] theorem lowByte_pairBytes (x y : Byte) : lowByte (pairBytes x y) = y := BitVec.extractLsb'_append_eq_right

@[simp] theorem highByte_xor (v k : BitVec 16) : highByte (v ^^^ k) = highByte v ^^^ highByte k :=
  BitVec.extractLsb'_xor

@[simp] theorem lowByte_xor (v k : BitVec 16) : lowByte (v ^^^ k) = lowByte v ^^^ lowByte k :=
  BitVec.extractLsb'_xor

/-! The loop of Apply, byte by byte (41_data_transform.md R110, R111). -/

@[simp] theorem cipherWords_nil (k : Key) : cipherWords k [] = [] := by simp [cipherWords]

@[simp] theorem cipherWords_single (k : Key) (x : Byte) : cipherWords k [x] = [x ^^^ highByte k] := by
  simp [cipherWords]

@[simp] theorem cipherWords_cons_cons (k : Key) (x y : Byte) (rest : List Byte) :
    cipherWords k (x :: y :: rest) = (x ^^^ highByte k) :: (y ^^^ lowByte k) :: cipherWords (nextKey k) rest := by
  simp [cipherWords]

@[simp] theorem length_cipherWords (k : Key) (b : List Byte) : (cipherWords k b).length = b.length := by
  induction k, b using cipherWords.induct with
  | case1 => simp
  | case2 => simp
  | case3 k x y rest ih => simp [ih]

/-- XOR with the same key twice is nothing, and the keys do not depend on the bytes (41_data_transform.md R122). -/
theorem cipherWords_cipherWords (k : Key) (b : List Byte) : cipherWords k (cipherWords k b) = b := by
  induction k, b using cipherWords.induct with
  | case1 => simp
  | case2 => simp
  | case3 k x y rest ih => simp [ih]

/-- The keystream from the second word position on is the keystream of the next key. -/
theorem keystream_nextKey (k : Key) (n : Nat) : keystream (nextKey k) n = keystream k (n + 1) := by
  induction n with
  | zero => rfl
  | succ n ih => rw [keystream, ih]; rfl

theorem getElem?_cipherWords (n : Nat) (k : Key) (b : List Byte) :
    (cipherWords k b)[2 * n]? = b[2 * n]?.map (· ^^^ highByte (keystream k n)) ∧
      (cipherWords k b)[2 * n + 1]? = b[2 * n + 1]?.map (· ^^^ lowByte (keystream k n)) := by
  induction n generalizing k b with
  | zero =>
    match b with
    | [] | [x] | x :: y :: rest => simp [keystream]
  | succ n ih =>
    match b with
    | [] | [x] => simp [Nat.mul_succ]
    | x :: y :: rest => simpa [Nat.mul_succ, keystream_nextKey] using ih (nextKey k) rest

/-! Apply (41_data_transform.md R110). -/

/-- Taking or dropping too many bytes is taking or dropping all of them. -/
theorem cipherApply_eq (b : List Byte) (k : Key) (p : Nat) :
    cipherApply b k p = b.take p ++ cipherWords k (b.drop p) := by
  obtain h | h := Nat.le_total p b.length
  · rw [cipherApply, Nat.min_eq_left h]
  · rw [cipherApply_of_length_le h, List.take_of_length_le h, List.drop_of_length_le h, cipherWords_nil,
      List.append_nil]

@[simp] theorem cipherApply_zero (b : List Byte) (k : Key) : cipherApply b k 0 = cipherWords k b := by
  simp [cipherApply_eq]

@[simp] theorem cipherApply_nil (k : Key) (p : Nat) : cipherApply [] k p = [] := by simp [cipherApply_eq]

@[simp] theorem cipherApply_cons_succ (x : Byte) (xs : List Byte) (k : Key) (p : Nat) :
    cipherApply (x :: xs) k (p + 1) = x :: cipherApply xs k p := by
  simp [cipherApply_eq]

theorem getElem?_cipherApply_of_lt {n p : Nat} (h : n < p) (b : List Byte) (k : Key) :
    (cipherApply b k p)[n]? = b[n]? := by
  induction b generalizing n p with
  | nil => rw [cipherApply_nil]
  | cons x xs ih =>
    obtain ⟨p, rfl⟩ : ∃ q, p = q + 1 := ⟨p - 1, by omega⟩
    cases n with
    | zero => simp
    | succ n => simpa using ih (Nat.lt_of_succ_lt_succ h)

theorem getElem?_cipherApply_add (b : List Byte) (k : Key) (p n : Nat) :
    (cipherApply b k p)[p + n]? = (cipherWords k (b.drop p))[n]? := by
  induction b generalizing p with
  | nil => simp
  | cons x xs ih =>
    cases p with
    | zero => simp
    | succ p => simpa [Nat.add_right_comm] using ih p

/-- Settles O49: below the passthrough count Apply copies, from there on it is the loop over the rest of the buffer. -/
theorem applyXorsEachByteWithTheKeystream : Obligations.ApplyXorsEachByteWithTheKeystream := by
  unfold Obligations.ApplyXorsEachByteWithTheKeystream
  intro b k p n
  obtain ⟨hhigh, hlow⟩ := getElem?_cipherWords n k (b.drop p)
  refine ⟨fun h => getElem?_cipherApply_of_lt h b k, ?_, ?_⟩
  · rw [getElem?_cipherApply_add, hhigh, List.getElem?_drop]
    rfl
  · rw [Nat.add_assoc, getElem?_cipherApply_add, hlow, List.getElem?_drop]
    rfl

/-- Settles O50: the copied bytes and the transformed ones together are as many as the buffer's. -/
theorem applyKeepsTheLength : Obligations.ApplyKeepsTheLength := by
  unfold Obligations.ApplyKeepsTheLength
  intro b k p
  rw [cipherApply_eq, List.length_append, length_cipherWords, ← List.length_append, List.take_append_drop]

/-- Settles O51, byte by byte through the passthrough bytes; after them the loop is its own inverse. -/
theorem applyIsSelfInverse : Obligations.ApplyIsSelfInverse := by
  unfold Obligations.ApplyIsSelfInverse
  intro b k p
  induction b generalizing p with
  | nil => simp
  | cons x xs ih =>
    cases p with
    | zero => rw [cipherApply_zero, cipherApply_zero, cipherWords_cipherWords]
    | succ p => rw [cipherApply_cons_succ, cipherApply_cons_succ, ih]

/-! The engine after the passthrough bytes (41_data_transform.md R114): two bytes are one word position. -/

/-- The engine steps of a whole word position use both halves of the key and go on to the next. -/
theorem engineRun_word_position (x y : Byte) (rest : List Byte) {s : State} (hpass : s.pass = 0#24)
    (hphase : s.phase = .high) :
    engineRun (x :: y :: rest) s =
      ((x ^^^ highByte s.key) :: (y ^^^ lowByte s.key) ::
          (engineRun rest { s with key := nextKey s.key, count := s.count + 2#32 }).1,
        (engineRun rest { s with key := nextKey s.key, count := s.count + 2#32 }).2) := by
  have hcount : s.count + 1#32 + 1#32 = s.count + 2#32 := BitVec.add_assoc ..
  rw [engineRun_cons, engineRun_cons, engineStep_of_high x hpass hphase,
    engineStep_of_low y (s := { s with count := s.count + 1#32, phase := .low }) hpass rfl]
  simp only [hcount, ← hphase]

theorem engineRun_fst_of_pass_zero (k : Key) (b : List Byte) {s : State} (hkey : s.key = k) (hpass : s.pass = 0#24)
    (hphase : s.phase = .high) : (engineRun b s).1 = cipherWords k b := by
  induction k, b using cipherWords.induct generalizing s with
  | case1 => simp
  | case2 k x => simp [engineStep_of_high x hpass hphase, hkey]
  | case3 k x y rest ih =>
    subst hkey
    have hrest := ih (s := { s with key := nextKey s.key, count := s.count + 2#32 }) rfl hpass hphase
    rw [engineRun_word_position x y rest hpass hphase, cipherWords_cons_cons, hrest]

/-- Settles O47, byte by byte through the passthrough bytes; after them the engine is the loop of Apply. -/
theorem engineComputesApply : Obligations.EngineComputesApply := by
  unfold Obligations.EngineComputesApply
  intro b
  induction b with
  | nil => simp
  | cons x xs ih =>
    intro s hphase
    by_cases hpass : s.pass = 0#24
    · rw [engineRun_fst_of_pass_zero s.key _ rfl hpass hphase, hpass]
      exact (cipherApply_zero _ _).symm
    · have hsucc : s.pass.toNat = (s.pass - 1#24).toNat + 1 := by bv_omega
      have hrest := ih { s with count := s.count + 1#32, pass := s.pass - 1#24 } hphase
      rw [engineRun_cons, engineStep_of_pass x hpass, hsucc, cipherApply_cons_succ, hrest]

theorem engineRun_snd_of_pass_zero (k : Key) (b : List Byte) {s : State} (hkey : s.key = k) (hpass : s.pass = 0#24)
    (hphase : s.phase = .high) :
    (engineRun b s).2 =
      { s with
        phase := if b.length % 2 = 0 then .high else .low, key := keystream k (b.length / 2),
        count := s.count + BitVec.ofNat 32 b.length } := by
  induction k, b using cipherWords.induct generalizing s with
  | case1 k => simp [keystream, ← hkey, ← hphase]
  | case2 k x => simp [engineStep_of_high x hpass hphase, keystream, ← hkey]
  | case3 k x y rest ih =>
    subst hkey
    have hcount : s.count + 2#32 + BitVec.ofNat 32 rest.length = s.count + BitVec.ofNat 32 (rest.length + 2) := by
      rw [BitVec.add_assoc, ← BitVec.ofNat_add, Nat.add_comm]
    have hrest := ih (s := { s with key := nextKey s.key, count := s.count + 2#32 }) rfl hpass hphase
    rw [engineRun_word_position x y rest hpass hphase, hrest, keystream_nextKey]
    simp only [hcount, List.length_cons, Nat.add_assoc, Nat.reduceAdd, Nat.add_mod_right,
      Nat.add_div_right _ Nat.two_pos]

/-- Settles O48, byte by byte through the passthrough bytes: each uses up one of PASS, and once PASS is 0 the engine
goes on by word positions. -/
theorem engineStateAfterBytes : Obligations.EngineStateAfterBytes := by
  unfold Obligations.EngineStateAfterBytes
  intro b
  induction b with
  | nil => simp
  | cons x xs ih =>
    intro s hphase
    by_cases hpass : s.pass = 0#24
    · have hpassNat : s.pass.toNat = 0 := congrArg BitVec.toNat hpass
      refine ⟨fun hle => absurd hle (by simp [hpassNat]), fun _ => ?_⟩
      rw [engineRun_snd_of_pass_zero s.key _ rfl hpass hphase, hpassNat, ← hpass]
      rfl
    · have hsucc : s.pass.toNat = (s.pass - 1#24).toNat + 1 := by bv_omega
      have hleft : s.pass - 1#24 - BitVec.ofNat 24 xs.length = s.pass - BitVec.ofNat 24 (xs.length + 1) := by
        rw [BitVec.sub_sub, ← BitVec.ofNat_add, Nat.add_comm]
      have hcount : s.count + 1#32 + BitVec.ofNat 32 xs.length = s.count + BitVec.ofNat 32 (xs.length + 1) := by
        rw [BitVec.add_assoc, ← BitVec.ofNat_add, Nat.add_comm]
      obtain ⟨hshort, hlong⟩ := ih { s with count := s.count + 1#32, pass := s.pass - 1#24 } hphase
      rw [engineRun_cons, engineStep_of_pass x hpass, List.length_cons, hsucc]
      refine ⟨fun hle => ?_, fun hlt => ?_⟩
      · rw [hshort (Nat.le_of_succ_le_succ hle)]
        simp only [hleft, hcount]
      · rw [hlong (Nat.lt_of_succ_lt_succ hlt), Nat.add_sub_add_right]
        simp only [hcount]

/-- Settles O24: R112's shift is a multiplication by 16, and both sides are reduced modulo 2^16 in the end. -/
theorem nextKeyIsSeventeenTimesTheKeyPlus87 : Obligations.NextKeyIsSeventeenTimesTheKeyPlus87 := by
  unfold Obligations.NextKeyIsSeventeenTimesTheKeyPlus87
  intro k
  refine ⟨?_, ?_⟩
  · rw [nextKey_toNat, Nat.shiftLeft_eq]
    omega
  · rw [← BitVec.toNat_inj, nextKey_toNat, BitVec.toNat_add, BitVec.toNat_add, BitVec.toNat_shiftLeft,
      BitVec.toNat_ofNat]
    omega

end Sys2Proof.Machine
end

section
/-! The key sequence (41_data_transform.md R123) as a linear congruence: `16 k + 87` is multiplied by 17 modulo 2^20 at
each key update, so the period of the keys is the order of 17 modulo 2^20. -/

namespace Sys2Proof.Machine

/-- `16 k + 87`, in which the key update is a multiplication. -/
def shiftedKey (k : Key) : Int := 16 * k.toNat + 87

theorem shiftedKey_nextKey (k : Key) : shiftedKey (nextKey k) ≡ 17 * shiftedKey k [ZMOD 2 ^ 20] := by
  have hupdate := (nextKeyIsSeventeenTimesTheKeyPlus87 k).1
  rw [Int.ModEq, shiftedKey, shiftedKey, hupdate]
  omega

theorem shiftedKey_keystream (k : Key) (n : Nat) :
    shiftedKey (keystream k n) ≡ 17 ^ n * shiftedKey k [ZMOD 2 ^ 20] := by
  induction n with
  | zero => rw [pow_zero, one_mul]; rfl
  | succ n ih =>
    calc shiftedKey (nextKey (keystream k n))
        ≡ 17 * shiftedKey (keystream k n) [ZMOD 2 ^ 20] := shiftedKey_nextKey _
      _ ≡ 17 * (17 ^ n * shiftedKey k) [ZMOD 2 ^ 20] := ih.mul_left 17
      _ = 17 ^ (n + 1) * shiftedKey k := by ring

/-- Modulo 2^20 the shifted key still tells the keys apart. -/
theorem shiftedKey_modEq_iff (k k' : Key) : shiftedKey k ≡ shiftedKey k' [ZMOD 2 ^ 20] ↔ k = k' := by
  rw [← BitVec.toNat_inj, Int.ModEq, shiftedKey, shiftedKey]
  omega

/-- The shifted key is odd, so it has no factor in common with 2^20. -/
theorem isCoprime_shiftedKey (k : Key) : IsCoprime ((2 : Int) ^ 20) (shiftedKey k) := by
  have hodd : IsCoprime (2 : Int) (shiftedKey k) := ⟨-(8 * k.toNat + 43), 1, by rw [shiftedKey]; ring⟩
  exact hodd.pow_left

/-- The order of 17 modulo 2^20 is 2^16: lifting the exponent, `17 ^ n - 1` has the four factors 2 of `17 - 1` and
those of n. -/
theorem two_pow_dvd_seventeen_pow_sub_one_iff (n : Nat) : (2 : Int) ^ 20 ∣ 17 ^ n - 1 ↔ 65536 ∣ n := by
  have hlift : emultiplicity (2 : Int) (17 ^ n - 1 ^ n) = emultiplicity 2 (17 - 1 : Int) + emultiplicity 2 (n : Int) :=
    Int.two_pow_sub_pow' n (by decide) (by decide)
  have hsixteen : emultiplicity (2 : Int) (17 - 1) = 4 :=
    emultiplicity_eq_of_dvd_of_not_dvd (k := 4) (by decide) (by decide)
  rw [one_pow, hsixteen] at hlift
  have hsplit : ((20 : Nat) : ENat) = 4 + (16 : Nat) := rfl
  rw [pow_dvd_iff_le_emultiplicity, hlift, hsplit, ENat.add_le_add_iff_left (by decide),
    ← pow_dvd_iff_le_emultiplicity]
  exact_mod_cast Iff.rfl

theorem keystream_eq_self_iff (k : Key) (n : Nat) : keystream k n = k ↔ 65536 ∣ n := by
  have hfactor : shiftedKey k - 17 ^ n * shiftedKey k = -((17 ^ n - 1) * shiftedKey k) := by ring
  calc keystream k n = k
      ↔ shiftedKey (keystream k n) ≡ shiftedKey k [ZMOD 2 ^ 20] := (shiftedKey_modEq_iff _ _).symm
    _ ↔ 17 ^ n * shiftedKey k ≡ shiftedKey k [ZMOD 2 ^ 20] :=
        ⟨(shiftedKey_keystream k n).symm.trans, (shiftedKey_keystream k n).trans⟩
    _ ↔ (2 : Int) ^ 20 ∣ (17 ^ n - 1) * shiftedKey k := by rw [Int.modEq_iff_dvd, hfactor, dvd_neg]
    _ ↔ (2 : Int) ^ 20 ∣ 17 ^ n - 1 :=
        ⟨(isCoprime_shiftedKey k).dvd_of_dvd_mul_right, fun h => h.mul_right _⟩
    _ ↔ 65536 ∣ n := two_pow_dvd_seventeen_pow_sub_one_iff n

theorem keystream_add (k : Key) (m n : Nat) : keystream k (m + n) = keystream (keystream k m) n := by
  induction n with
  | zero => rfl
  | succ n ih => exact congrArg nextKey ih

/-- Two positions with the same key are a multiple of the period apart. -/
theorem dvd_sub_of_keystream_eq {k : Key} {m n : Nat} (hle : m ≤ n) (h : keystream k m = keystream k n) :
    65536 ∣ n - m := by
  rw [← keystream_eq_self_iff (keystream k m), ← keystream_add, Nat.add_sub_cancel' hle, h]

/-- So no key comes twice in a window of one period. -/
theorem keystream_window_injective {k : Key} {a m n : Nat} (hm : a ≤ m ∧ m < a + 65536) (hn : a ≤ n ∧ n < a + 65536)
    (h : keystream k m = keystream k n) : m = n := by
  obtain hle | hle := Nat.le_total m n
  · have := dvd_sub_of_keystream_eq hle h
    omega
  · have := dvd_sub_of_keystream_eq hle h.symm
    omega

/-- The keys of a window, as numbers. -/
def windowKey (k : Key) (a : Nat) (i : Fin (2 ^ 16)) : Fin (2 ^ 16) := (keystream k (a + i)).toFin

theorem windowKey_injective (k : Key) (a : Nat) : Function.Injective (windowKey k a) := by
  intro i j h
  have hij : a + i.val = a + j.val :=
    keystream_window_injective (a := a) ⟨by omega, by omega⟩ ⟨by omega, by omega⟩ (BitVec.toFin_inj.mp h)
  exact Fin.ext (by omega)

/-- A window holds as many positions as there are keys, so no key is missing from it. -/
theorem exists_keystream_eq (k v : Key) (a : Nat) : ∃ n, (a ≤ n ∧ n < a + 65536) ∧ keystream k n = v := by
  obtain ⟨i, hi⟩ := Finite.surjective_of_injective (windowKey_injective k a) v.toFin
  exact ⟨a + i, ⟨by omega, by omega⟩, BitVec.toFin_inj.mp hi⟩

/-- Settles O54: the period is the order of 17, and in a window of one period every key comes, none of them twice. -/
theorem keystreamHasPeriod65536 : Obligations.KeystreamHasPeriod65536 := by
  unfold Obligations.KeystreamHasPeriod65536
  refine ⟨keystream_eq_self_iff, fun k v a => ?_⟩
  obtain ⟨n, hn, hkey⟩ := exists_keystream_eq k v a
  exact ⟨n, ⟨hn, hkey⟩, fun m ⟨hm, hm_key⟩ => keystream_window_injective hm hn (hm_key.trans hkey.symm)⟩

end Sys2Proof.Machine
end

section
/-! Runs (20_memory.md R62): what a list of events does, by its first event and by its parts, and the run of the machine
that performs it. -/

namespace Sys2Proof.Machine

theorem performAll_cons {e : BusEvent} {s t : State} (h : performEvent e s = .next t) (es : List BusEvent) :
    performAll (e :: es) s = performAll es t := by
  rw [performAll, h]

theorem performAll_append {es fs : List BusEvent} {s t : State} (h : performAll es s = .next t) :
    performAll (es ++ fs) s = performAll fs t := by
  induction es generalizing s with
  | nil => cases h; rfl
  | cons e es ih =>
    cases he : performEvent e s with
    | next u =>
      rw [performAll_cons he] at h
      rw [List.cons_append, performAll_cons he, ih h]
    | fault r => cases r
    | refused r => rw [performAll, he] at h; cases h

/-- The word of a command, written to CMD, runs the command (30_encoding.md R70, R74). -/
theorem performEvent_write_encode (i : Instr) (s : State) : performEvent (.write 0#3 (encode i)) s = exec i s :=
  performEvent_write_of_ok (decodeOfEncodeIsTheInstruction i) s

theorem performAll_write_encode {i : Instr} {s t : State} (h : exec i s = .next t) (es : List BusEvent) :
    performAll (.write 0#3 (encode i) :: es) s = performAll es t :=
  performAll_cons ((performEvent_write_encode i s).trans h) es

/-! Every command, every event and so every step completes (60_exceptions.md R166, R169). -/

theorem exists_unlessOutputHeld_eq_next (s a : State) : ∃ t, unlessOutputHeld s a = .next t := by
  by_cases h : s.outCnt = 0#2
  · exact ⟨_, unlessOutputHeld_of_empty a h⟩
  · exact ⟨_, unlessOutputHeld_of_held a h⟩

theorem exists_exec_eq_next (i : Instr) (s : State) : ∃ t, exec i s = .next t := by
  cases i with
  | nop | setkey | keytag | setpass | clrerr | sreset => exact ⟨_, rfl⟩
  | xbyte b => exact exists_unlessOutputHeld_eq_next s (transformByte b s)
  | xword w => exact exists_unlessOutputHeld_eq_next s (transformWord w s)

theorem exists_performEvent_eq_next (e : BusEvent) (s : State) : ∃ t, performEvent e s = .next t := by
  cases e with
  | write i v =>
    by_cases hi : i = 0#3
    · subst hi
      cases hd : decode v with
      | ok ins =>
        obtain ⟨t, ht⟩ := exists_exec_eq_next ins s
        exact ⟨t, (performEvent_write_of_ok hd s).trans ht⟩
      | error r => exact ⟨_, performEvent_write_of_error hd s⟩
    · exact ⟨s, performEvent_write_of_ne_zero hi v s⟩
  | read | hardwareReset | powerUp => exact ⟨_, rfl⟩

/-- R62's form in the model: the oldest event first (log entry 1). -/
theorem step_of_issued {e : BusEvent} {rest : List BusEvent} {s : State} (h : s.issued = e :: rest) :
    step s = performEvent e { s with issued := rest } := by
  rw [step, h]

theorem step_of_nothing_issued {s : State} (h : s.issued = []) : step s = .next s := by
  rw [step, h]

/-- Settles O42: the two forms of a step. -/
theorem stepPerformsTheOldestEvent : Obligations.StepPerformsTheOldestEvent := by
  unfold Obligations.StepPerformsTheOldestEvent
  exact ⟨fun _ _ _ h => step_of_issued h, fun _ h => step_of_nothing_issued h⟩

/-- Settles O34: a step waits or performs an event, and every event completes. -/
theorem everyEventAndStepCompletes : Obligations.EveryEventAndStepCompletes := by
  unfold Obligations.EveryEventAndStepCompletes
  refine ⟨exists_performEvent_eq_next, fun s => ?_⟩
  cases hs : s.issued with
  | nil => exact ⟨s, step_of_nothing_issued hs⟩
  | cons e rest =>
    rw [step_of_issued hs]
    exact exists_performEvent_eq_next e _

/-- Settles O43: the oldest event is the write, and the write runs the decoded command. -/
theorem stepRunsTheDecodedCommand : Obligations.StepRunsTheDecodedCommand := by
  unfold Obligations.StepRunsTheDecodedCommand
  intro w i rest s hissued hok
  rw [step_of_issued hissued, performEvent_write_of_ok hok]

/-- A 32-bit word is its own word of the opcode table (log entry 13). -/
theorem tableWord_toNat (w : BusWord) : tableWord 32 w.toNat = w := by
  rw [tableWord, Nat.mod_eq_of_lt w.isLt, BitVec.ofNat_toNat, BitVec.setWidth_eq]

/-- Settles O44: the step takes the command's own word off the list again and runs it. -/
theorem withFetchWordRunsTheCommand : Obligations.WithFetchWordRunsTheCommand := by
  unfold Obligations.WithFetchWordRunsTheCommand
  intro i s
  have hissued : (s.withFetchWord 32 (encode i).toNat).issued = .write 0#3 (encode i) :: s.issued := by
    rw [State.withFetchWord, tableWord_toNat]
    rfl
  rw [step_of_issued hissued, performEvent_write_encode]
  rfl

/-! No event reads or changes what is still issued (20_memory.md R62; log entry 1). -/

/-- The state with another list of issued events. -/
def withIssued (es : List BusEvent) (s : State) : State := { s with issued := es }

theorem outsideEngine_withIssued (es : List BusEvent) : OutsideEngine (withIssued es) := fun _ _ => rfl

theorem raiseError_withIssued (c : ErrorCause) (es : List BusEvent) (s : State) :
    raiseError c (withIssued es s) = withIssued es (raiseError c s) := by
  cases c <;> rfl

theorem readValue_withIssued (r : Reg) (es : List BusEvent) (s : State) :
    readValue r (withIssued es s) = readValue r s := by
  cases r <;> rfl

theorem readEffect_withIssued (r : Reg) (es : List BusEvent) (s : State) :
    readEffect r (withIssued es s) = withIssued es (readEffect r s) := by
  cases r with
  | dout =>
    by_cases h : s.outCnt = 0#2
    · rw [readEffect_dout_of_empty h, readEffect_dout_of_empty (s := withIssued es s) h, raiseError_withIssued]
    · rw [readEffect_dout_of_held h, readEffect_dout_of_held (s := withIssued es s) h]
      rfl
  | cmd | key | keyinit | pass | status | count | id => rfl

theorem exec_withIssued {i : Instr} {s t : State} (h : exec i s = .next t) (es : List BusEvent) :
    exec i (withIssued es s) = .next (withIssued es t) := by
  cases i with
  | nop | setkey | keytag | setpass | clrerr | sreset => cases h; rfl
  | xbyte b =>
    obtain ⟨hs, rfl⟩ | ⟨hs, rfl⟩ := unlessOutputHeld_next h
    · rw [exec_xbyte_of_held (s := withIssued es s) hs, raiseError_withIssued]
    · rw [exec_xbyte_of_empty (s := withIssued es s) hs,
        transformByte_outside (outsideEngine_withIssued es) (fun _ _ _ => rfl)]
  | xword w =>
    obtain ⟨hs, rfl⟩ | ⟨hs, rfl⟩ := unlessOutputHeld_next h
    · rw [exec_xword_of_held (s := withIssued es s) hs, raiseError_withIssued]
    · rw [exec_xword_of_empty (s := withIssued es s) hs,
        transformWord_outside (outsideEngine_withIssued es) (fun _ _ _ => rfl)]

theorem performEvent_withIssued {e : BusEvent} {s t : State} (h : performEvent e s = .next t) (es : List BusEvent) :
    performEvent e (withIssued es s) = .next (withIssued es t) := by
  obtain ⟨w, i, rfl, hok, hexec⟩ | ⟨w, r, rfl, herr, rfl⟩ | ⟨i, v, rfl, hi, rfl⟩ | ⟨i, rfl, rfl⟩ |
    ⟨rfl | rfl, rfl⟩ := performEvent_cases h
  · rw [performEvent_write_of_ok hok, exec_withIssued hexec]
  · exact performEvent_write_of_error herr _
  · exact performEvent_write_of_ne_zero hi v _
  · have hread : performEvent (.read i) (withIssued es s) = .next (reply (readValue (regOfIndex i) (withIssued es s))
        (readEffect (regOfIndex i) (withIssued es s))) := rfl
    rw [hread, readValue_withIssued, readEffect_withIssued]
    rfl
  · rfl
  · rfl

theorem run_succ_of_step {M : Host.Core} {s t : M.State} (h : M.step s = .next t) (n : Nat) :
    M.run (n + 1) s = M.run n t := by
  rw [Host.Core.run, h]

theorem run_succ_of_issued {e : BusEvent} {s t : State} (h : performEvent e s = .next t) (es : List BusEvent)
    (n : Nat) :
    Host.Core.run Sys2Proof.core (n + 1) (withIssued (e :: es) s) = Host.Core.run Sys2Proof.core n (withIssued es t) :=
  run_succ_of_step (M := Sys2Proof.core) (s := withIssued (e :: es) s) (t := withIssued es t)
    ((step_of_issued (s := withIssued (e :: es) s) rfl).trans (performEvent_withIssued h es)) n

/-- Settles O45, by induction on the events: each step performs the oldest event and leaves the rest issued. -/
theorem runPerformsEventsInIssueOrder : Obligations.RunPerformsEventsInIssueOrder := by
  unfold Obligations.RunPerformsEventsInIssueOrder
  intro es
  induction es with
  | nil => exact fun s => rfl
  | cons e es ih =>
    intro s
    obtain ⟨t, ht⟩ := exists_performEvent_eq_next e s
    have hfirst := run_succ_of_issued ht es es.length
    have hrest := performAll_cons (performEvent_withIssued ht []) es
    exact hfirst.trans ((ih t).trans hrest.symm)

end Sys2Proof.Machine
end

section
/-! Starting a message (40_key_control.md R92, R93, R96): the key of a JH tag, and SETPASS beside SETKEY. -/

namespace Sys2Proof.Machine

open Sys2Proof.Laws

/-- Settles O16: both are the key load of R92's key; the corner cases are three values of it. -/
theorem keytagIsSetkeyOfTheXoredHalf : Obligations.KeytagIsSetkeyOfTheXoredHalf := by
  unfold Obligations.KeytagIsSetkeyOfTheXoredHalf
  refine ⟨fun x s => ?_, by decide, by decide, by decide⟩
  rw [exec_keytag, exec_setkey, keyOfTag_eq]

/-- The four bytes of a header are its two halves (20_memory.md R58). -/
theorem tagHeader_eq (t0 t1 t2 t3 : Byte) : tagHeader t0 t1 t2 t3 = (t0 ++ t1) ++ (t2 ++ t3) := by
  rw [← BitVec.toNat_inj]
  simp only [tagHeader, toNat_append_eq]
  omega

theorem tagLowHalf_tagHeader (t0 t1 t2 t3 : Byte) : tagLowHalf (tagHeader t0 t1 t2 t3) = t2 ++ t3 := by
  rw [tagHeader_eq]
  exact BitVec.extractLsb'_append_eq_right

/-- The mask of R9 keeps the high half, which in a JH tag is JH_TAG_HIGH (00_scope.md). -/
theorem highHalf_of_isJhTag {t0 t1 t2 t3 : Byte} (h : isJhTag (tagHeader t0 t1 t2 t3) = true) :
    t0 ++ t1 = Config.jhTagHigh := by
  have hmask : (t0 ++ t1) ++ (t2 ++ t3) &&& 0xFFFF#16 ++ 0#16 = Config.jhTagHigh ++ 0#16 := by
    rw [← tagHeader_eq]
    exact eq_of_beq h
  have hones (v : BitVec 16) : v &&& 0xFFFF#16 = v := BitVec.and_allOnes
  rw [BitVec.and_append, hones] at hmask
  exact (append_eq_append_iff.mp hmask).1

/-- Settles O17: the tag's high half is the constant that KEYTAG adds to the low half. -/
theorem tagKeyIsTheXorOfTheTagHalves : Obligations.TagKeyIsTheXorOfTheTagHalves := by
  unfold Obligations.TagKeyIsTheXorOfTheTagHalves
  intro t0 t1 t2 t3 s htag
  rw [exec_keytag, tagLowHalf_tagHeader, keyOfTag, highHalf_of_isJhTag htag]
  rfl

/-- Settles O18: each word runs its command, and the two commands write different registers. -/
theorem setpassAndSetkeyCommute : Obligations.SetpassAndSetkeyCommute := by
  unfold Obligations.SetpassAndSetkeyCommute
  intro k p s
  refine ⟨?_, ?_⟩
  · rw [performAll_write_encode (exec_setpass p s), performAll_write_encode (exec_setkey k _)]
    rfl
  · rw [performAll_write_encode (exec_setkey k s), performAll_write_encode (exec_setpass p _)]
    rfl

end Sys2Proof.Machine
end

section
/-! XWORD (41_data_transform.md R117): its two engine steps for every PASS and PHASE, and its DOUT read beside those of
two XBYTEs. -/

namespace Sys2Proof.Machine

open Sys2Proof.Laws

/-- A word is its two bytes (20_memory.md R57). -/
theorem pairBytes_highByte_lowByte (w : DataWord) : pairBytes (highByte w) (lowByte w) = w := by
  rw [← BitVec.toNat_inj, pairBytes, toNat_append_eq, highByte, lowByte, BitVec.extractLsb'_toNat,
    BitVec.extractLsb'_toNat, Nat.shiftRight_eq_div_pow]
  omega

theorem pairBytes_xor (x y a b : Byte) : pairBytes (x ^^^ a) (y ^^^ b) = pairBytes x y ^^^ pairBytes a b :=
  BitVec.xor_append.symm

/-- What the two engine steps answer is what XWORD holds. -/
theorem transformWord_of_engineRun {w : DataWord} {s t : State} {y1 y2 : Byte}
    (h : engineRun [highByte w, lowByte w] s = ([y1, y2], t)) :
    transformWord w s = holdOutput (pairBytes y1 y2) 2#2 t := by
  cases h
  rfl

/-! The two engine steps, by where in the message they fall (41_data_transform.md R113). -/

theorem engineRun_two_of_pass (x y : Byte) {s : State} (h : 2 ≤ s.pass.toNat) :
    engineRun [x, y] s = ([x, y], { s with pass := s.pass - 2#24, count := s.count + 2#32 }) := by
  have hfirst : s.pass ≠ 0#24 := by bv_omega
  have hsecond : s.pass - 1#24 ≠ 0#24 := by bv_omega
  have hpass : s.pass - 1#24 - 1#24 = s.pass - 2#24 := BitVec.sub_sub ..
  have hcount : s.count + 1#32 + 1#32 = s.count + 2#32 := BitVec.add_assoc ..
  rw [engineRun_cons, engineStep_of_pass x hfirst, engineRun_cons,
    engineStep_of_pass y (s := { s with count := s.count + 1#32, pass := s.pass - 1#24 }) hsecond]
  simp only [hpass, hcount, engineRun_nil]

theorem engineRun_two_of_last_pass (x y : Byte) {s : State} (h : s.pass = 1#24) :
    engineRun [x, y] s =
      (x :: (engineRun [y] { s with count := s.count + 1#32, pass := 0#24 }).1,
        (engineRun [y] { s with count := s.count + 1#32, pass := 0#24 }).2) := by
  have hleft : s.pass - 1#24 = 0#24 := by rw [h]; rfl
  rw [engineRun_cons, engineStep_of_pass x (by rw [h]; decide), hleft]

theorem engineRun_two_of_last_pass_high (x y : Byte) {s : State} (h : s.pass = 1#24) (hphase : s.phase = .high) :
    engineRun [x, y] s =
      ([x, y ^^^ highByte s.key], { s with pass := 0#24, phase := .low, count := s.count + 2#32 }) := by
  have hcount : s.count + 1#32 + 1#32 = s.count + 2#32 := BitVec.add_assoc ..
  rw [engineRun_two_of_last_pass x y h, engineRun_cons,
    engineStep_of_high y (s := { s with count := s.count + 1#32, pass := 0#24 }) rfl hphase]
  simp only [hcount, engineRun_nil]

theorem engineRun_two_of_last_pass_low (x y : Byte) {s : State} (h : s.pass = 1#24) (hphase : s.phase = .low) :
    engineRun [x, y] s =
      ([x, y ^^^ lowByte s.key],
        { s with pass := 0#24, phase := .high, key := nextKey s.key, count := s.count + 2#32 }) := by
  have hcount : s.count + 1#32 + 1#32 = s.count + 2#32 := BitVec.add_assoc ..
  rw [engineRun_two_of_last_pass x y h, engineRun_cons,
    engineStep_of_low y (s := { s with count := s.count + 1#32, pass := 0#24 }) rfl hphase]
  simp only [hcount, engineRun_nil]

theorem engineRun_two_of_low (x y : Byte) {s : State} (h : s.pass = 0#24) (hphase : s.phase = .low) :
    engineRun [x, y] s =
      ([x ^^^ lowByte s.key, y ^^^ highByte (nextKey s.key)],
        { s with key := nextKey s.key, count := s.count + 2#32 }) := by
  have hcount : s.count + 1#32 + 1#32 = s.count + 2#32 := BitVec.add_assoc ..
  rw [engineRun_cons, engineStep_of_low x h hphase, engineRun_cons,
    engineStep_of_high y (s := { s with count := s.count + 1#32, phase := .high, key := nextKey s.key }) h rfl]
  simp only [hcount, engineRun_nil, ← hphase]

/-- Settles O20: the words of the XWORD row, the overrun, and the two engine steps by where they fall. -/
theorem xwordTransformsTwoBytes : Obligations.XwordTransformsTwoBytes := by
  unfold Obligations.XwordTransformsTwoBytes
  refine ⟨fun _ h => decode_of_xword_match h, fun w s => ⟨?_, ?_, ?_, ?_, ?_, ?_⟩⟩
  · intro hheld
    exact exec_xword_of_held hheld w
  · intro hempty hpass
    rw [exec_xword_of_empty hempty, transformWord_of_engineRun (engineRun_two_of_pass _ _ hpass),
      pairBytes_highByte_lowByte]
    rfl
  · intro hempty hpass hphase
    rw [exec_xword_of_empty hempty, transformWord_of_engineRun (engineRun_two_of_last_pass_high _ _ hpass hphase)]
    rfl
  · intro hempty hpass hphase
    rw [exec_xword_of_empty hempty, transformWord_of_engineRun (engineRun_two_of_last_pass_low _ _ hpass hphase),
      nextKey_eq_ofNat]
    rfl
  · intro hempty hpass hphase
    rw [exec_xword_of_empty hempty, transformWord_of_engineRun (engineRun_word_position _ _ [] hpass hphase),
      pairBytes_xor, pairBytes_highByte_lowByte, pairBytes_highByte_lowByte, nextKey_eq_ofNat]
    rfl
  · intro hempty hpass hphase
    rw [exec_xword_of_empty hempty, transformWord_of_engineRun (engineRun_two_of_low _ _ hpass hphase),
      nextKey_eq_ofNat]
    rfl

/-! A data command and its DOUT read: the output goes to the host, and only the engine's registers have changed. -/

/-- The host has collected `v` from DOUT (41_data_transform.md R119). -/
def collect (v : BusWord) (s : State) : State := reply v (emptyOutput s)

theorem outsideEngine_collect (v : BusWord) : OutsideEngine (collect v) := fun _ _ => rfl

/-- A DOUT read empties what a data command held, and nothing else of it is left. -/
theorem performAll_read_dout_holdOutput (v : DataWord) {n : BitVec 2} (hn : n ≠ 0#2) (s : State) :
    performAll [.read 5#3] (holdOutput v n s) = .next (collect (readValue .dout (holdOutput v n s)) s) := by
  rw [performAll_cons (performEvent_read_dout _), readEffect_dout_of_held (s := holdOutput v n s) hn]
  rfl

theorem performAll_xbyte_read (b : Byte) {s : State} (h : s.outCnt = 0#2) :
    performAll [.write 0#3 (encode (.xbyte b)), .read 5#3] s =
      .next (collect ((engineStep b s).1.setWidth 32) (engineStep b s).2) := by
  rw [performAll_write_encode (exec_xbyte_of_empty h b), ← readValue_dout_transformByte]
  exact performAll_read_dout_holdOutput _ (by decide) _

theorem performAll_xword_read (w : DataWord) {s : State} (h : s.outCnt = 0#2) :
    performAll [.write 0#3 (encode (.xword w)), .read 5#3] s =
      .next (collect
        (0#16 ++ (engineStep (highByte w) s).1 ++ (engineStep (lowByte w) (engineStep (highByte w) s).2).1)
        (engineRun [highByte w, lowByte w] s).2) := by
  rw [performAll_write_encode (exec_xword_of_empty h w), ← readValue_dout_transformWord]
  exact performAll_read_dout_holdOutput _ (by decide) _

theorem zero_append_append_eq_setWidth (x y : Byte) : 0#16 ++ x ++ y = (x ++ y).setWidth 32 := by
  rw [← BitVec.toNat_inj]
  simp only [toNat_append_eq, BitVec.toNat_setWidth, BitVec.toNat_ofNat]
  omega

/-- Settles O21: the DOUT read between the two XBYTEs does not touch the engine. -/
theorem xwordIsTwoXbytes : Obligations.XwordIsTwoXbytes := by
  unfold Obligations.XwordIsTwoXbytes
  intro w s hempty
  refine ⟨emptyOutput (engineRun [highByte w, lowByte w] s).2, (engineStep (highByte w) s).1,
    (engineStep (lowByte w) (engineStep (highByte w) s).2).1, ?_, ?_⟩
  · rw [performAll_xword_read w hempty, zero_append_append_eq_setWidth, collect, reply]
    simp
  · have hfirst := performAll_append (fs := [.write 0#3 (encode (.xbyte (lowByte w))), .read 5#3])
      (performAll_xbyte_read (highByte w) hempty)
    refine hfirst.trans ?_
    rw [performAll_xbyte_read (lowByte w) rfl, engineStep_outside (outsideEngine_collect _)]
    simp [collect, reply, emptyOutput]

end Sys2Proof.Machine
end

section
/-! A message as the host sends it (41_data_transform.md R118; 70_reset_and_hazards.md R183): each chunk feeds its bytes
to the engine and its DOUT read collects their output. -/

namespace Sys2Proof.Machine

open Sys2Proof.Laws

@[simp] theorem assemblePseudos_nil : assemblePseudos [] = [] := rfl

theorem assemblePseudos_cons (p : Pseudo) (ps : List Pseudo) :
    assemblePseudos (p :: ps) = (expandPseudo p).map assembleLine ++ assemblePseudos ps := by
  simp [assemblePseudos]

/-- What the DOUT read after a chunk answers. -/
def chunkReply : Chunk → State → BusWord
  | .one b, s => (engineStep b s).1.setWidth 32
  | .two w, s => 0#16 ++ (engineStep (highByte w) s).1 ++ (engineStep (lowByte w) (engineStep (highByte w) s).2).1

theorem performAll_chunk (c : Chunk) {s : State} (h : s.outCnt = 0#2) :
    performAll ((expandPseudo (chunkPseudo c)).map assembleLine) s =
      .next (collect (chunkReply c s) (engineRun (chunkBytes c) s).2) := by
  cases c with
  | one b => exact performAll_xbyte_read b h
  | two w => exact performAll_xword_read w h

/-- The host takes from a reply the bytes that the engine answered (41_data_transform.md R118). -/
theorem chunkOutput_chunkReply (c : Chunk) (s : State) :
    chunkOutput c (chunkReply c s) = (engineRun (chunkBytes c) s).1 := by
  cases c with
  | one b => simp [chunkOutput, chunkReply, chunkBytes, BitVec.extractLsb'_setWidth_of_le]
  | two w =>
    have hfirst (x y : Byte) : (0#16 ++ x ++ y).extractLsb' 8 8 = x := by
      rw [← BitVec.toNat_inj, BitVec.extractLsb'_toNat, Nat.shiftRight_eq_div_pow]
      simp only [toNat_append_eq, BitVec.toNat_ofNat]
      omega
    have hsecond (x y : Byte) : (0#16 ++ x ++ y).extractLsb' 0 8 = y := BitVec.extractLsb'_append_eq_right
    simp only [chunkOutput, chunkReply, chunkBytes, hfirst, hsecond, engineRun_cons, engineRun_nil]

/-- From s to t the chunks are sent and `reads` collected, as R118 says. -/
structure SendsChunks (cs : List Chunk) (s t : State) (reads : List BusWord) : Prop where
  run : performAll (assemblePseudos (cs.map chunkPseudo)) s = .next t
  replies : t.replies = s.replies ++ reads
  length : reads.length = cs.length
  output : collectOutput cs reads = (engineRun (messageBytes cs) s).1
  errors : SameErrors s t
  outCnt : t.outCnt = 0#2
  keyinit : t.keyinit = s.keyinit
  issued : t.issued = s.issued

theorem SendsChunks.cons {c : Chunk} {cs : List Chunk} {s t : State} {reads : List BusWord} (hs : s.outCnt = 0#2)
    (h : SendsChunks cs (collect (chunkReply c s) (engineRun (chunkBytes c) s).2) t reads) :
    SendsChunks (c :: cs) s t (chunkReply c s :: reads) where
  run := by
    rw [List.map_cons, assemblePseudos_cons, performAll_append (performAll_chunk c hs), h.run]
  replies := by
    rw [h.replies, collect, reply_replies, emptyOutput_replies, engineRun_replies, List.append_assoc,
      List.singleton_append]
  length := by rw [List.length_cons, List.length_cons, h.length]
  output := by
    have hmessage : messageBytes (c :: cs) = chunkBytes c ++ messageBytes cs := List.flatMap_cons
    have hcollect : collectOutput (c :: cs) (chunkReply c s :: reads) =
        chunkOutput c (chunkReply c s) ++ collectOutput cs reads := by simp [collectOutput]
    rw [hcollect, chunkOutput_chunkReply, h.output, engineRun_outside (outsideEngine_collect _), hmessage,
      engineRun_append]
  errors := by
    obtain ⟨hill, hovf, hunf⟩ := h.errors
    obtain ⟨hill', hovf', hunf'⟩ := sameErrors_engineRun (chunkBytes c) s
    exact ⟨hill.trans hill', hovf.trans hovf', hunf.trans hunf'⟩
  outCnt := h.outCnt
  keyinit := h.keyinit.trans (engineRun_keyinit _ s)
  issued := h.issued.trans (engineRun_issued _ s)

theorem exists_sendsChunks (cs : List Chunk) {s : State} (h : s.outCnt = 0#2) :
    ∃ t reads, SendsChunks cs s t reads := by
  induction cs generalizing s with
  | nil => exact ⟨s, [], rfl, (List.append_nil _).symm, rfl, rfl, ⟨rfl, rfl, rfl⟩, h, rfl, rfl⟩
  | cons c cs ih =>
    obtain ⟨t, reads, hsends⟩ := ih (s := collect (chunkReply c s) (engineRun (chunkBytes c) s).2) rfl
    exact ⟨t, _, hsends.cons h⟩

/-- At the start of a word position, what is collected is Apply under KEY and PASS (41_data_transform.md R114). -/
theorem SendsChunks.output_eq_cipherApply {cs : List Chunk} {s t : State} {reads : List BusWord}
    (h : SendsChunks cs s t reads) (hphase : s.phase = .high) :
    collectOutput cs reads = cipherApply (messageBytes cs) s.key s.pass.toNat :=
  h.output.trans (engineComputesApply _ s hphase)

/-- BEGIN and BEGINTAG load the passthrough count and then the key (30_encoding.md R80; 40_key_control.md R93). -/
theorem performAll_start {start : Pseudo} {k : Key} {p : PassCount}
    (h : start = .beginKey k p ∨ ∃ x : DataWord, start = .beginTag x p ∧ k = 0x4A48#16 ^^^ x) (s : State) :
    performAll ((expandPseudo start).map assembleLine) s = .next (loadKey k (loadPass p s)) := by
  obtain rfl | ⟨x, rfl, rfl⟩ := h
  · exact (setpassAndSetkeyCommute k p s).1
  · exact (performAll_write_encode (exec_setpass p s) _).trans
      (performAll_write_encode (exec_keytag x (loadPass p s)) [])

/-- Settles O55: the start leaves the engine at the first word position with the message's key and count. -/
theorem sentMessageCollectsApply : Obligations.SentMessageCollectsApply := by
  unfold Obligations.SentMessageCollectsApply
  intro start k p cs s hstart hempty
  obtain ⟨t, reads, hsends⟩ :=
    exists_sendsChunks cs (s := loadKey k (loadPass p (withIssued [] s))) hempty
  refine ⟨t, reads, ?_, hsends.replies, hsends.length, hsends.output_eq_cipherApply rfl, hsends.errors, hsends.outCnt,
    hsends.keyinit, hsends.issued⟩
  have hrun := runPerformsEventsInIssueOrder (messageEvents start cs) s
  refine hrun.trans ?_
  rw [messageEvents, assemblePseudos_cons, performAll_append (performAll_start hstart _)]
  exact hsends.run

/-- Settles O56: the reset state is at a word position, with KEY and PASS 0. -/
theorem messageAfterResetUsesKeyZero : Obligations.MessageAfterResetUsesKeyZero := by
  unfold Obligations.MessageAfterResetUsesKeyZero
  intro cs
  obtain ⟨t, reads, hsends⟩ := exists_sendsChunks cs (s := State.reset) rfl
  exact ⟨t, reads, hsends.run, hsends.replies, hsends.length, hsends.output_eq_cipherApply rfl, hsends.errors⟩

end Sys2Proof.Machine
end

section
/-! What one event can do to the whole state, once for every event, with what each kind of effect says of the event that
had it. The rules about single registers and flags are read off from it (10_state.md; 60_exceptions.md). -/

namespace Sys2Proof.Machine

/-- The effects of an event on the state (20_memory.md R52 to R54; 40_key_control.md; 41_data_transform.md;
42_system.md; 60_exceptions.md R160 to R162). -/
inductive EventEffect (e : BusEvent) (s : State) : State → Prop
  | nothing : EventEffect e s s
  | loadKey (hw : WritesCommand ["SETKEY", "KEYTAG"] e) (k : Key) : EventEffect e s (loadKey k s)
  | loadPass (hw : WritesCommand ["SETPASS"] e) (p : PassCount) : EventEffect e s (loadPass p s)
  | overrun (hw : WritesCommand ["XBYTE", "XWORD"] e) (hs : s.outCnt ≠ 0#2) : EventEffect e s (raiseError .overrun s)
  | transform (hw : WritesCommand ["XBYTE", "XWORD"] e) (b : List Byte) (v : DataWord) (n : BitVec 2)
      (hv : n = 2#2 ∨ n = 1#2 ∧ v.toNat < 256) : EventEffect e s (holdOutput v n (engineRun b s).2)
  | clearErrors (hw : WritesCommand ["CLRERR"] e) : EventEffect e s (clearErrors s)
  | reset (hr : ResetsBlock e) : EventEffect e s (resetBlock s)
  | illegal (w : BusWord) (he : e = .write 0#3 w) (hwf : wellFormedWord w = false) :
      EventEffect e s (raiseError .illegal s)
  | answer (i : RegIndex) (he : e = .read i) (v : BusWord) : EventEffect e s (reply v s)
  | collect (he : e = .read 5#3) (v : BusWord) : EventEffect e s (collect v s)
  | underrun (he : e = .read 5#3) (hs : s.outCnt = 0#2) (v : BusWord) :
      EventEffect e s (reply v (raiseError .underrun s))

theorem zeroExtendByte_toNat_lt (y : Byte) : (zeroExtendByte y).toNat < 256 := by
  have hy := y.isLt
  rw [zeroExtendByte, BitVec.toNat_setWidth]
  omega

theorem wellFormedWord_eq_false_of_error {w : BusWord} {r : DecodeError} (h : decode w = .error r) :
    wellFormedWord w = false := by
  by_contra hwf
  obtain ⟨i, hok⟩ := (decodesExactlyWhenWellFormed w).mpr (Bool.eq_true_of_not_eq_false hwf)
  cases h.symm.trans hok

theorem eventEffect_of_exec {w : BusWord} {i : Instr} {s t : State} (hok : decode w = .ok i) (h : exec i s = .next t) :
    EventEffect (.write 0#3 w) s t := by
  have hw {names : List String} (hmem : mnemonic i ∈ names) : WritesCommand names (.write 0#3 w) :=
    ⟨w, i, rfl, hok, hmem⟩
  cases i with
  | nop => cases h; exact .nothing
  | setkey k => cases h; exact .loadKey (hw (by simp [mnemonic])) k
  | keytag x => cases h; exact .loadKey (hw (by simp [mnemonic])) (keyOfTag x)
  | setpass p => cases h; exact .loadPass (hw (by simp [mnemonic])) p
  | xbyte b =>
    obtain ⟨hs, rfl⟩ | ⟨-, rfl⟩ := unlessOutputHeld_next h
    · exact .overrun (hw (by simp [mnemonic])) hs
    · exact .transform (hw (by simp [mnemonic])) [b] _ 1#2 (.inr ⟨rfl, zeroExtendByte_toNat_lt _⟩)
  | xword v =>
    obtain ⟨hs, rfl⟩ | ⟨-, rfl⟩ := unlessOutputHeld_next h
    · exact .overrun (hw (by simp [mnemonic])) hs
    · exact .transform (hw (by simp [mnemonic])) [highByte v, lowByte v] _ 2#2 (.inl rfl)
  | clrerr => cases h; exact .clearErrors (hw (by simp [mnemonic]))
  | sreset => cases h; exact .reset (.inl (hw (by simp [mnemonic])))

theorem eventEffect_of_read (i : RegIndex) (s : State) :
    EventEffect (.read i) s (reply (readValue (regOfIndex i) s) (readEffect (regOfIndex i) s)) := by
  by_cases hi : regOfIndex i = .dout
  · obtain rfl := regOfIndex_eq_dout.mp hi
    by_cases hs : s.outCnt = 0#2
    · rw [hi, readEffect_dout_of_empty hs]
      exact .underrun rfl hs _
    · rw [hi, readEffect_dout_of_held hs]
      exact .collect rfl _
  · rw [readEffect_of_ne_dout hi]
    exact .answer i rfl _

theorem eventEffect_of_performEvent {e : BusEvent} {s t : State} (h : performEvent e s = .next t) :
    EventEffect e s t := by
  obtain ⟨w, i, rfl, hok, hexec⟩ | ⟨w, r, rfl, herr, rfl⟩ | ⟨i, v, rfl, hi, rfl⟩ | ⟨i, rfl, rfl⟩ | ⟨hreset, rfl⟩ :=
    performEvent_cases h
  · exact eventEffect_of_exec hok hexec
  · exact .illegal w rfl (wellFormedWord_eq_false_of_error herr)
  · exact .nothing
  · exact eventEffect_of_read i s
  · exact .reset (.inr hreset)

theorem writesCommand_mono {names names' : List String} (hsub : names ⊆ names') {e : BusEvent}
    (h : WritesCommand names e) : WritesCommand names' e := by
  obtain ⟨w, i, he, hok, hmem⟩ := h
  exact ⟨w, i, he, hok, hsub hmem⟩

/-! The writers of each register (10_state.md R21 to R23, R25, R26, R28). -/

theorem EventEffect.keyinit_writer {e : BusEvent} {s t : State} (h : EventEffect e s t) (hne : t.keyinit ≠ s.keyinit) :
    WritesCommand ["SETKEY", "KEYTAG"] e ∨ ResetsBlock e := by
  cases h with
  | loadKey hw => exact .inl hw
  | reset hr => exact .inr hr
  | transform hw b => exact absurd (engineRun_keyinit b s) hne
  | nothing | loadPass | overrun | clearErrors | illegal | answer | collect | underrun =>
    exact absurd (by simp [Machine.collect]) hne

theorem EventEffect.engine_writer {e : BusEvent} {s t : State} (h : EventEffect e s t)
    (hne : t.key ≠ s.key ∨ t.phase ≠ s.phase ∨ t.count ≠ s.count) :
    WritesCommand ["SETKEY", "KEYTAG", "XBYTE", "XWORD"] e ∨ ResetsBlock e := by
  cases h with
  | loadKey hw => exact .inl (writesCommand_mono (by simp) hw)
  | transform hw => exact .inl (writesCommand_mono (by simp) hw)
  | reset hr => exact .inr hr
  | nothing | loadPass | overrun | clearErrors | illegal | answer | collect | underrun =>
    exact absurd hne (by simp [Machine.collect])

theorem EventEffect.pass_writer {e : BusEvent} {s t : State} (h : EventEffect e s t) (hne : t.pass ≠ s.pass) :
    WritesCommand ["SETPASS", "XBYTE", "XWORD"] e ∨ ResetsBlock e := by
  cases h with
  | loadPass hw => exact .inl (writesCommand_mono (by simp) hw)
  | transform hw => exact .inl (writesCommand_mono (by simp) hw)
  | reset hr => exact .inr hr
  | nothing | loadKey | overrun | clearErrors | illegal | answer | collect | underrun =>
    exact absurd (by simp [Machine.collect]) hne

theorem EventEffect.output_writer {e : BusEvent} {s t : State} (h : EventEffect e s t)
    (hne : t.dout ≠ s.dout ∨ t.outCnt ≠ s.outCnt) :
    WritesCommand ["XBYTE", "XWORD"] e ∨ e = .read 5#3 ∨ ResetsBlock e := by
  cases h with
  | transform hw => exact .inl hw
  | collect he => exact .inr (.inl he)
  | reset hr => exact .inr (.inr hr)
  | nothing | loadKey | loadPass | overrun | clearErrors | illegal | answer | underrun =>
    exact absurd hne (by simp)

/-- Settles O35: the writers of each register. -/
theorem registersChangeOnlyByTheirWriters : Obligations.RegistersChangeOnlyByTheirWriters := by
  unfold Obligations.RegistersChangeOnlyByTheirWriters
  intro e s t h
  have heffect := eventEffect_of_performEvent h
  exact ⟨heffect.keyinit_writer, fun hne => heffect.engine_writer (.inl hne), heffect.pass_writer,
    fun hne => heffect.engine_writer (.inr (.inl hne)), fun hne => heffect.engine_writer (.inr (.inr hne)),
    heffect.output_writer⟩

/-! The error flags (60_exceptions.md R160 to R167). -/

theorem errorFlag_eq_of_sameErrors {s t : State} (h : SameErrors s t) (c : ErrorCause) :
    errorFlag c t = errorFlag c s := by
  obtain ⟨hill, hovf, hunf⟩ := h
  cases c with
  | illegal => exact hill
  | overrun => exact hovf
  | underrun => exact hunf

/-- Raising an error changes the flag of no other cause. -/
theorem errorFlag_raiseError_cases (c d : ErrorCause) (s : State) :
    errorFlag c (raiseError d s) = errorFlag c s ∨ c = d ∧ errorFlag c (raiseError d s) = true := by
  rw [errorFlag_raiseError]
  by_cases h : d = c
  · exact .inr ⟨h.symm, by simp [h]⟩
  · exact .inl (by simp [h])

/-- The access that is this cause of an error (60_exceptions.md R160 to R162). -/
def CausesError (c : ErrorCause) (e : BusEvent) (s : State) : Prop :=
  (c = .illegal ∧ ∃ w, e = .write 0#3 w ∧ wellFormedWord w = false) ∨
  (c = .overrun ∧ WritesCommand ["XBYTE", "XWORD"] e ∧ s.outCnt ≠ 0#2) ∨
  (c = .underrun ∧ e = .read 5#3 ∧ s.outCnt = 0#2)

/-- An event keeps a flag, sets it as its cause, or clears it. -/
theorem EventEffect.errorFlag_cases {e : BusEvent} {s t : State} (h : EventEffect e s t) (c : ErrorCause) :
    errorFlag c t = errorFlag c s ∨
    (errorFlag c t = true ∧ CausesError c e s) ∨
    (errorFlag c t = false ∧ (WritesCommand ["CLRERR"] e ∨ ResetsBlock e)) := by
  cases h with
  | nothing | loadKey | loadPass | answer | collect => exact .inl (errorFlag_eq_of_sameErrors ⟨rfl, rfl, rfl⟩ c)
  | transform hw b => exact .inl (errorFlag_eq_of_sameErrors (sameErrors_engineRun b s) c)
  | overrun hw hs =>
    exact (errorFlag_raiseError_cases c .overrun s).imp_right fun ⟨hc, hset⟩ => .inl ⟨hset, .inr (.inl ⟨hc, hw, hs⟩)⟩
  | illegal w he hwf =>
    exact (errorFlag_raiseError_cases c .illegal s).imp_right fun ⟨hc, hset⟩ => .inl ⟨hset, .inl ⟨hc, w, he, hwf⟩⟩
  | underrun he hs v =>
    have hreply : errorFlag c (reply v (raiseError .underrun s)) = errorFlag c (raiseError .underrun s) :=
      errorFlag_eq_of_sameErrors ⟨rfl, rfl, rfl⟩ c
    rw [hreply]
    exact (errorFlag_raiseError_cases c .underrun s).imp_right fun ⟨hc, hset⟩ => .inl ⟨hset, .inr (.inr ⟨hc, he, hs⟩)⟩
  | clearErrors hw => exact .inr (.inr ⟨errorFlag_clearErrors c s, .inl hw⟩)
  | reset hr => exact .inr (.inr ⟨errorFlag_clearErrors c (resetBlock s), .inr hr⟩)

/-- Settles O31: the flag was neither kept nor cleared. -/
theorem errorFlagIsSetOnlyByItsCause : Obligations.ErrorFlagIsSetOnlyByItsCause := by
  unfold Obligations.ErrorFlagIsSetOnlyByItsCause
  intro e c s t h hclear hset
  obtain hkept | ⟨-, hcause⟩ | ⟨hcleared, -⟩ := (eventEffect_of_performEvent h).errorFlag_cases c
  · simp [hkept, hclear] at hset
  · exact hcause
  · simp [hcleared] at hset

/-- Settles O32: the flag was neither kept nor set. -/
theorem errorFlagIsClearedOnlyByClrerrOrReset : Obligations.ErrorFlagIsClearedOnlyByClrerrOrReset := by
  unfold Obligations.ErrorFlagIsClearedOnlyByClrerrOrReset
  intro e c s t h hset hclear
  obtain hkept | ⟨hraised, -⟩ | ⟨-, hclearer⟩ := (eventEffect_of_performEvent h).errorFlag_cases c
  · simp [hkept, hset] at hclear
  · simp [hraised] at hclear
  · exact hclearer

/-! The promise about the output holding register (10_state.md R24, R26). -/

/-- The promise is about OUT_CNT and DOUT alone. -/
theorem outputWellFormed_of_eq {s t : State} (hcnt : t.outCnt = s.outCnt) (hdout : t.dout = s.dout)
    (h : OutputWellFormed s) : OutputWellFormed t := by
  unfold OutputWellFormed
  rwa [hcnt, hdout]

theorem outputWellFormed_of_empty {s : State} (hcnt : s.outCnt = 0#2) (hdout : s.dout = 0#16) : OutputWellFormed s := by
  unfold OutputWellFormed
  simp [hcnt, hdout]

theorem outputWellFormed_holdOutput {v : DataWord} {n : BitVec 2} (h : n = 2#2 ∨ n = 1#2 ∧ v.toNat < 256) (s : State) :
    OutputWellFormed (holdOutput v n s) := by
  unfold OutputWellFormed
  obtain rfl | ⟨rfl, hv⟩ := h
  · simp
  · simp [hv]

theorem EventEffect.outputWellFormed {e : BusEvent} {s t : State} (h : EventEffect e s t) (hs : OutputWellFormed s) :
    OutputWellFormed t := by
  cases h with
  | transform hw b v n hv => exact outputWellFormed_holdOutput hv _
  | reset | collect => exact outputWellFormed_of_empty rfl rfl
  | nothing | loadKey | loadPass | overrun | clearErrors | illegal | answer | underrun =>
    exact outputWellFormed_of_eq (by simp) (by simp) hs

/-- Settles O41: an idle step changes nothing, and taking an event off the list does not touch the output. -/
theorem stepKeepsTheOutputWellFormed : Obligations.StepKeepsTheOutputWellFormed := by
  unfold Obligations.StepKeepsTheOutputWellFormed
  intro s t hs h
  obtain ⟨-, rfl⟩ | ⟨e, rest, -, he⟩ := step_cases h
  · exact hs
  · exact (eventEffect_of_performEvent he).outputWellFormed hs

/-- Settles O40: after a reset the output is empty. -/
theorem resetStateHasWellFormedOutput : Obligations.ResetStateHasWellFormedOutput := by
  unfold Obligations.ResetStateHasWellFormedOutput
  exact outputWellFormed_of_empty rfl rfl

/-- Settles O36, command by command: the three that are left out are the only ones with an update of the output. -/
theorem otherCommandsLeaveThePendingOutput : Obligations.OtherCommandsLeaveThePendingOutput := by
  unfold Obligations.OtherCommandsLeaveThePendingOutput
  intro i s hother
  cases i with
  | nop | setkey | keytag | setpass | clrerr => exact ⟨_, rfl, rfl, rfl⟩
  | xbyte | xword | sreset => exact absurd (by simp [mnemonic]) hother

/-! The error flags do not influence a command (10_state.md R27). -/

/-- The state with other settings of the three error flags. -/
def withErrors (x y z : Bool) (s : State) : State := { s with errIll := x, errOvf := y, errUnf := z }

theorem outsideEngine_withErrors (x y z : Bool) : OutsideEngine (withErrors x y z) := fun _ _ => rfl

/-- The two outcomes are next states that differ at most in the error flags. -/
def AgreeButForErrors (o o' : Outcome) : Prop :=
  ∃ t u : State, o = .next t ∧ o' = .next u ∧ u = { t with errIll := u.errIll, errOvf := u.errOvf, errUnf := u.errUnf }

/-- The guard of the data commands looks at OUT_CNT alone. -/
theorem agreeButForErrors_unlessOutputHeld (x y z : Bool) (s a : State) :
    AgreeButForErrors (unlessOutputHeld s a) (unlessOutputHeld (withErrors x y z s) (withErrors x y z a)) := by
  by_cases hs : s.outCnt = 0#2
  · exact ⟨_, _, unlessOutputHeld_of_empty a hs, unlessOutputHeld_of_empty (s := withErrors x y z s) _ hs, rfl⟩
  · exact ⟨_, _, unlessOutputHeld_of_held a hs, unlessOutputHeld_of_held (s := withErrors x y z s) _ hs, rfl⟩

/-- Settles O33, command by command: the data commands by their guard, the others write the registers they write
whatever the flags are. -/
theorem errorFlagsDoNotInfluenceCommands : Obligations.ErrorFlagsDoNotInfluenceCommands := by
  unfold Obligations.ErrorFlagsDoNotInfluenceCommands
  intro i s x y z
  cases i with
  | nop | setkey | keytag | setpass | clrerr | sreset => exact ⟨_, _, rfl, rfl, rfl⟩
  | xbyte b =>
    have h := agreeButForErrors_unlessOutputHeld x y z s (transformByte b s)
    rwa [← transformByte_outside (outsideEngine_withErrors x y z) (fun _ _ _ => rfl)] at h
  | xword w =>
    have h := agreeButForErrors_unlessOutputHeld x y z s (transformWord w s)
    rwa [← transformWord_outside (outsideEngine_withErrors x y z) (fun _ _ _ => rfl)] at h

end Sys2Proof.Machine
end

section
/-! The register space as the host reads it (10_state.md R24; 20_memory.md R51 to R53; 70_reset_and_hazards.md R181,
R186): the bits of STATUS, the offsets, the reads one after another, and a read right after a write. -/

namespace Sys2Proof.Machine

open Sys2Proof.Laws

/-! STATUS (10_state.md R24). -/

/-- STATUS from the bits it shows. -/
def statusBits (unf ovf ill : Bool) (cnt : BitVec 2) (ph : BitVec 1) : BusWord :=
  0#25 ++ BitVec.ofBool unf ++ BitVec.ofBool ovf ++ BitVec.ofBool ill ++ 0#1 ++ cnt ++ ph

theorem statusWord_eq (s : State) :
    statusWord s = statusBits s.errUnf s.errOvf s.errIll s.outCnt (phaseBit s.phase) := rfl

/-- The bits that stand for no error flag; a check of the 64 settings. -/
theorem statusBits_layout : ∀ (unf ovf ill : Bool) (cnt : BitVec 2) (ph : BitVec 1),
    (statusBits unf ovf ill cnt ph).getLsbD 0 = decide (ph = 1#1) ∧
    (statusBits unf ovf ill cnt ph).extractLsb' 1 2 = cnt ∧ (statusBits unf ovf ill cnt ph).getLsbD 3 = false ∧
    (statusBits unf ovf ill cnt ph).extractLsb' 7 25 = 0#25 := by decide

/-- Setting or clearing flags is setting or clearing their bits; a check of the 64 settings. -/
theorem statusBits_flags : ∀ (unf ovf ill : Bool) (cnt : BitVec 2) (ph : BitVec 1),
    statusBits unf true ill cnt ph = statusBits unf ovf ill cnt ph ||| 0x00000020#32 ∧
    statusBits unf ovf true cnt ph = statusBits unf ovf ill cnt ph ||| 0x00000010#32 ∧
    statusBits false false false cnt ph = statusBits unf ovf ill cnt ph &&& 0xFFFFFF8F#32 := by decide

theorem statusWord_raiseError_overrun (s : State) :
    statusWord (raiseError .overrun s) = statusWord s ||| 0x00000020#32 :=
  (statusBits_flags ..).1

theorem statusWord_raiseError_illegal (s : State) :
    statusWord (raiseError .illegal s) = statusWord s ||| 0x00000010#32 :=
  (statusBits_flags ..).2.1

theorem statusWord_clearErrors (s : State) : statusWord (clearErrors s) = statusWord s &&& 0xFFFFFF8F#32 :=
  (statusBits_flags ..).2.2

theorem statusWord_resetBlock (s : State) : statusWord (resetBlock s) = 0#32 :=
  (by decide : statusBits false false false 0#2 0#1 = 0#32)

theorem phaseBit_eq_one_iff (ph : Phase) : phaseBit ph = 1#1 ↔ ph = .low := by cases ph <;> decide

/-- Settles O29: the flags stand at their cause codes, the other bits as `statusBits_layout` gives them. -/
theorem statusHasItsLayout : Obligations.StatusHasItsLayout := by
  unfold Obligations.StatusHasItsLayout
  intro s
  obtain ⟨hphase, hcnt, hthree, hhigh⟩ :=
    statusBits_layout s.errUnf s.errOvf s.errIll s.outCnt (phaseBit s.phase)
  rw [← statusWord_eq] at hphase hcnt hthree hhigh
  exact ⟨hphase.trans (by simp only [phaseBit_eq_one_iff]), hcnt, hthree, statusWord_getLsbD_causeCode .illegal s,
    statusWord_getLsbD_causeCode .overrun s, statusWord_getLsbD_causeCode .underrun s, hhigh⟩

/-! Offsets (20_memory.md R51). -/

theorem indexOfOffset_toNat (off : BitVec 32) : (indexOfOffset off).toNat = off.toNat / 4 % 8 := by
  rw [indexOfOffset, BitVec.extractLsb'_toNat, Nat.shiftRight_eq_div_pow]

theorem indexOfOffset_of_eq_regOffset {off : BitVec 32} {r : Reg} (h : off.toNat = regOffset r) :
    indexOfOffset off = regIndex r := by
  have hlt := (regIndex r).isLt
  rw [← BitVec.toNat_inj, indexOfOffset_toNat, h, regOffset]
  omega

/-- Settles O30: bits 4:2 of a register's offset are its index, which selects it. -/
theorem registersStandAtTheirOffsets : Obligations.RegistersStandAtTheirOffsets := by
  unfold Obligations.RegistersStandAtTheirOffsets
  refine ⟨rfl, fun r off h => ?_, indexOfOffset_toNat⟩
  rw [indexOfOffset_of_eq_regOffset h, regOfIndex_regIndex]

/-- Settles O39: all three are `resetBlock`, whose record update the statement writes out. -/
theorem hardwareResetIsTheChangeOfSreset : Obligations.HardwareResetIsTheChangeOfSreset := by
  unfold Obligations.HardwareResetIsTheChangeOfSreset
  intro s
  exact ⟨performEvent_hardwareReset s, rfl, exec_sreset s⟩

/-! Reads (20_memory.md R52, R53). -/

theorem performEvent_read_key (s : State) : performEvent (.read 1#3) s = .next (reply (s.key.setWidth 32) s) := rfl

theorem performEvent_read_keyinit (s : State) :
    performEvent (.read 2#3) s = .next (reply (s.keyinit.setWidth 32) s) := rfl

theorem performEvent_read_pass (s : State) : performEvent (.read 3#3) s = .next (reply (s.pass.setWidth 32) s) := rfl

theorem performEvent_read_status (s : State) : performEvent (.read 4#3) s = .next (reply (statusWord s) s) := rfl

theorem performEvent_read_count (s : State) : performEvent (.read 6#3) s = .next (reply s.count s) := rfl

theorem performEvent_read_id (s : State) : performEvent (.read 7#3) s = .next (reply 0x4A480001#32 s) := rfl

theorem performAll_single {e : BusEvent} {s t : State} (h : performEvent e s = .next t) : performAll [e] s = .next t :=
  performAll_cons h []

@[simp] theorem readEffect_replies (r : Reg) (s : State) : (readEffect r s).replies = s.replies := by
  cases r with
  | dout =>
    by_cases h : s.outCnt = 0#2
    · rw [readEffect_dout_of_empty h, raiseError_replies]
    · rw [readEffect_dout_of_held h, emptyOutput_replies]
  | cmd | key | keyinit | pass | status | count | id => rfl

/-- A DOUT read shows in no register but DOUT and STATUS (41_data_transform.md R119, R120; log entry 11). -/
theorem readValue_readEffect {r : Reg} (hdout : r ≠ .dout) (hstatus : r ≠ .status) (r' : Reg) (s : State) :
    readValue r (readEffect r' s) = readValue r s := by
  by_cases hr' : r' = .dout
  · subst hr'
    by_cases h : s.outCnt = 0#2
    · rw [readEffect_dout_of_empty h]
      cases r with
      | dout => exact absurd rfl hdout
      | status => exact absurd rfl hstatus
      | cmd | key | keyinit | pass | count | id => rfl
    · rw [readEffect_dout_of_held h]
      cases r with
      | dout => exact absurd rfl hdout
      | status => exact absurd rfl hstatus
      | cmd | key | keyinit | pass | count | id => rfl
  · rw [readEffect_of_ne_dout hr']

/-- The host's replies are in no register. -/
theorem readValue_reply (r : Reg) (v : BusWord) (s : State) : readValue r (reply v s) = readValue r s := by
  cases r <;> rfl

/-- From s to t the registers with these indices are read and answer `vs`: nothing but DOUT and STATUS can show it, and
without a DOUT read nothing at all. -/
structure ReadsRegisters (js : List RegIndex) (s t : State) (vs : List BusWord) : Prop where
  run : performAll (js.map .read) s = .next t
  length : vs.length = js.length
  replies : t.replies = s.replies ++ vs
  value : ∀ r : Reg, r ≠ .dout → r ≠ .status → readValue r t = readValue r s
  state : (∀ j ∈ js, j ≠ 5#3) → t = { s with replies := t.replies }

theorem ReadsRegisters.cons {j : RegIndex} {js : List RegIndex} {s t : State} {vs : List BusWord}
    (h : ReadsRegisters js (reply (readValue (regOfIndex j) s) (readEffect (regOfIndex j) s)) t vs) :
    ReadsRegisters (j :: js) s t (readValue (regOfIndex j) s :: vs) where
  run := (performAll_cons rfl _).trans h.run
  length := congrArg Nat.succ h.length
  replies := by simp [h.replies]
  value r hdout hstatus := by
    rw [h.value r hdout hstatus, readValue_reply, readValue_readEffect hdout hstatus]
  state hjs := by
    have hj : regOfIndex j ≠ .dout := mt regOfIndex_eq_dout.mp (hjs j List.mem_cons_self)
    have hrest := h.state fun j' hj' => hjs j' (List.mem_cons_of_mem j hj')
    rw [readEffect_of_ne_dout hj] at hrest
    exact hrest

theorem exists_readsRegisters (js : List RegIndex) (s : State) : ∃ t vs, ReadsRegisters js s t vs := by
  induction js generalizing s with
  | nil => exact ⟨s, [], rfl, rfl, (List.append_nil _).symm, fun _ _ _ => rfl, fun _ => rfl⟩
  | cons j js ih =>
    obtain ⟨t, vs, h⟩ := ih (reply (readValue (regOfIndex j) s) (readEffect (regOfIndex j) s))
    exact ⟨t, _, h.cons⟩

theorem regOfIndex_eq_status {i : RegIndex} : regOfIndex i = .status ↔ i = 4#3 := by
  revert i; decide

/-- A register reads the same again, STATUS if no DOUT read is between (20_memory.md R53; log entry 11). -/
theorem ReadsRegisters.readValue_eq {js : List RegIndex} {s t : State} {vs : List BusWord} {i : RegIndex}
    (h : ReadsRegisters js s t vs) (hi : i ≠ 5#3) (hstatus : i = 4#3 → ∀ j ∈ js, j ≠ 5#3) :
    readValue (regOfIndex i) t = readValue (regOfIndex i) s := by
  by_cases hi4 : i = 4#3
  · rw [h.state (hstatus hi4), hi4]
    rfl
  · exact h.value _ (mt regOfIndex_eq_dout.mp hi) (mt regOfIndex_eq_status.mp hi4)

/-- Settles O27: the seven reads, then a read before and after any others. -/
theorem registerReadsReturnTheirValuesAndChangeNothing :
    Obligations.RegisterReadsReturnTheirValuesAndChangeNothing := by
  unfold Obligations.RegisterReadsReturnTheirValuesAndChangeNothing
  refine ⟨fun s => ⟨performEvent_read_cmd s, performEvent_read_key s, performEvent_read_keyinit s,
    performEvent_read_pass s, performEvent_read_status s, performEvent_read_count s, performEvent_read_id s⟩, ?_⟩
  intro i js s hi hstatus
  have hread (u : State) := performEvent_read_of_ne_dout (mt regOfIndex_eq_dout.mp hi) u
  obtain ⟨t, vs, hreads⟩ := exists_readsRegisters js (reply (readValue (regOfIndex i) s) s)
  have hsame : readValue (regOfIndex i) t = readValue (regOfIndex i) s :=
    (hreads.readValue_eq hi hstatus).trans (readValue_reply ..)
  refine ⟨reply (readValue (regOfIndex i) s) t, readValue (regOfIndex i) s, vs, ?_, hreads.length, ?_, fun hjs => ?_⟩
  · rw [List.cons_append, performAll_cons (hread s), performAll_append hreads.run, performAll_single (hread t), hsame]
  · simp [hreads.replies]
  · rw [hreads.state hjs]
    rfl

/-! A read right after a write (70_reset_and_hazards.md R186). -/

/-- No write answers anything (20_memory.md R52). -/
theorem replies_of_performEvent_write {i : RegIndex} {v : BusWord} {s t : State}
    (h : performEvent (.write i v) s = .next t) : t.replies = s.replies := by
  cases eventEffect_of_performEvent h with
  | nothing | loadKey | loadPass | overrun | clearErrors | reset | illegal => simp
  | transform hw b => exact engineRun_replies b s
  | answer j he | collect he | underrun he => cases he

/-- A write that leaves t, then a read of STATUS. -/
theorem performAll_write_read_status {w : BusWord} {s t : State} (h : performEvent (.write 0#3 w) s = .next t) :
    performAll [.write 0#3 w, .read 4#3] s = .next (reply (statusWord t) t) :=
  (performAll_cons h _).trans (performAll_single (performEvent_read_status t))

theorem performAll_setkey_reads {i : Instr} {k : Key} {s : State} (h : exec i s = .next (loadKey k s)) :
    performAll [.write 0#3 (encode i), .read 1#3, .read 2#3] s =
      .next { s with
        key := k, keyinit := k, phase := .high, count := 0#32,
        replies := s.replies ++ [k.setWidth 32, k.setWidth 32] } := by
  rw [performAll_write_encode h, performAll_cons (performEvent_read_key _),
    performAll_single (performEvent_read_keyinit _)]
  simp [loadKey, reply]

theorem performAll_sreset_reads (s : State) :
    performAll [.write 0#3 (encode .sreset), .read 1#3, .read 2#3, .read 3#3, .read 4#3, .read 6#3, .read 7#3] s =
      .next { State.reset with
        issued := s.issued,
        replies := s.replies ++ [0#32, 0#32, 0#32, 0#32, 0#32, 0x4A480001#32] } := by
  rw [performAll_write_encode (exec_sreset s), performAll_cons (performEvent_read_key _),
    performAll_cons (performEvent_read_keyinit _), performAll_cons (performEvent_read_pass _),
    performAll_cons (performEvent_read_status _), performAll_cons (performEvent_read_count _),
    performAll_single (performEvent_read_id _)]
  have hstatus (v : BusWord) (u : State) : statusWord (reply v u) = statusWord u := rfl
  simp only [hstatus, statusWord_resetBlock, reply_keyinit, reply_pass, reply_count, resetBlock_key,
    resetBlock_keyinit, resetBlock_pass, resetBlock_count]
  simp [reply, resetBlock]

/-- Settles O37: any write completes and answers nothing, so the next read answers from the state it leaves; then the
values, write by write. -/
theorem readAfterWriteSeesTheWrite : Obligations.ReadAfterWriteSeesTheWrite := by
  unfold Obligations.ReadAfterWriteSeesTheWrite
  refine ⟨fun i v s => ?_, fun s => ⟨fun k => performAll_setkey_reads (exec_setkey k s),
    fun x => performAll_setkey_reads (exec_keytag x s), fun p => ?_, fun b hempty => ?_, fun w hempty => ?_,
    fun b hheld => ?_, fun w hheld => ?_, fun w hwf => ?_, ?_, performAll_sreset_reads s⟩⟩
  · obtain ⟨t, ht⟩ := exists_performEvent_eq_next (.write i v) s
    refine ⟨t, ht, fun j => ?_⟩
    rw [performAll_cons ht, performAll_single (t := reply _ (readEffect (regOfIndex j) t)) rfl, reply,
      readEffect_replies, replies_of_performEvent_write ht]
  · rw [performAll_write_encode (exec_setpass p s), performAll_single (performEvent_read_pass _)]
    rfl
  · rw [performAll_xbyte_read b hempty, collect, reply, emptyOutput_replies, engineStep_replies]
    rfl
  · rw [performAll_xword_read w hempty, collect, reply, emptyOutput_replies, engineRun_replies]
    rfl
  · rw [performAll_write_read_status ((performEvent_write_encode _ s).trans (exec_xbyte_of_held hheld b)),
      statusWord_raiseError_overrun]
    rfl
  · rw [performAll_write_read_status ((performEvent_write_encode _ s).trans (exec_xword_of_held hheld w)),
      statusWord_raiseError_overrun]
    rfl
  · obtain ⟨r, herr⟩ := exists_decode_error_of_not_wellFormed hwf
    rw [performAll_write_read_status (t := raiseError .illegal s) (performEvent_write_of_error herr s),
      statusWord_raiseError_illegal]
    rfl
  · rw [performAll_write_read_status ((performEvent_write_encode _ s).trans (exec_clrerr s)), statusWord_clearErrors]
    rfl

end Sys2Proof.Machine
end
